-- ==== Sys2Proof/Word.lean ====
section
/-! DEFINITION. The one machine word: the byte that DATA, the caller memory and the 8-bit registers hold. -/

namespace Sys2Proof

/-- An 8-bit value: "single 8-bit read/write port" (00_scope.md section 5). -/
abbrev Byte := BitVec 8

end Sys2Proof
end

