-- ==== Sys2Proof/Config.lean ====
section
/-! DEFINITION. What a launch fixes (00_scope.md R5, 10_state.md R54) and the free values: the parameters of the
block, the host operation stream's records, and the opaque constants that stand for draws and free choices. -/

namespace Sys2Proof

/-- A block of existing caller memory: the addresses from `base` up to, not including, `base + size`. -/
structure Region where
  base : Nat
  size : Nat
  deriving DecidableEq, Repr, Inhabited

/-- P_WRITE_WHILE_BUSY: what a data-register write during an exchange does (43_serial_engine.md R171). -/
inductive WritePolicy where
  | drop
  | fault
  deriving DecidableEq, Repr, Inhabited

/-- The parameters a model is instantiated with (00_scope.md R5). A width is held as its predecessor, so that
every width is at least 1; the two default configurations hold their open bits only, since bits 4 and 7 are fixed
(42_control.md R152, R153). P_TICK is left out: no rule reads it (log 18). -/
structure Params where
  /-- P_ADDR_BITS − 1. -/
  addrPred : Nat
  /-- P_SIZE_BITS − 1. -/
  sizePred : Nat
  /-- P_TIMEOUT_BITS − 1. -/
  timeoutPred : Nat
  /-- P_HOOK_BITS − 1. -/
  hookPred : Nat
  /-- P_MEM, as a finite union of regions (log 15). -/
  regions : List Region
  /-- P_WRITE_WHILE_BUSY. -/
  writeWhileBusy : WritePolicy
  /-- P_STRICT_BLOCKING_IE. -/
  strictBlockingIe : Bool
  /-- P_UNSET_HOOK_FAULTS. -/
  unsetHookFaults : Bool
  /-- The open bits of P_DEFAULT_CONTROLLER_CFG; bits 4 and 7 of this field are not read (log 16). -/
  ctrlDefaultOpen : Byte
  /-- The open bits of P_DEFAULT_PERIPHERAL_CFG; bits 4 and 7 of this field are not read (log 16). -/
  periphDefaultOpen : Byte
  deriving DecidableEq, Repr, Inhabited

/-- P_ADDR_BITS (00_scope.md section 5). -/
def Params.addrBits (p : Params) : Nat := p.addrPred + 1

/-- P_SIZE_BITS. -/
def Params.sizeBits (p : Params) : Nat := p.sizePred + 1

/-- P_TIMEOUT_BITS. -/
def Params.timeoutBits (p : Params) : Nat := p.timeoutPred + 1

/-- P_HOOK_BITS. -/
def Params.hookBits (p : Params) : Nat := p.hookPred + 1

/-- A host operation, one of the four forms of 30_encoding.md R80. -/
inductive HostOp where
  /-- `HW(r, v)`: write v to register number r. -/
  | hw (r v : Nat)
  /-- `HR(r)`: read register number r. -/
  | hr (r : Nat)
  /-- `HMW(a, v)`: write the byte v to caller memory at a. -/
  | hmw (a : Nat) (v : Byte)
  /-- `HMR(a)`: read the byte of caller memory at a. -/
  | hmr (a : Nat)
  deriving DecidableEq, Repr

/-- The launch's parameters: every one the spec leaves OPEN is free (log 2). -/
opaque Config.params : Params

/-- The draw that S.tx_shift holds at reset (10_state.md R45; log 4). -/
opaque Config.resetTxShift : Byte

/-- The draw that S.rx_latch holds at reset (10_state.md R46; log 4). -/
opaque Config.resetRxLatch : Byte

/-- The byte the remote party sends in an exchange that completes at a given step (43_serial_engine.md R175,
R180; log 4). -/
opaque Config.peerByte : Nat → Byte

/-- The free choice among the enabled moves at a given step (00_scope.md R4; log 1). -/
opaque Config.choice : Nat → Nat

end Sys2Proof
end

