-- ==== Sys2Proof/Syntax.lean ====
section
/-! DEFINITION. The commands: one constructor per row of spec/opcode_table.json (30_encoding.md R83). -/

namespace Sys2Proof

/-- A command of the block. No command has an operand field: operands are read from the argument
registers at issue (30_encoding.md R84). -/
inductive Instr where
  /-- INIT, 42_control.md R150. -/
  | init
  /-- DEINIT, 42_control.md R151. -/
  | deinit
  /-- INIT_CTRL_DEFAULT, 42_control.md R152. -/
  | initCtrlDefault
  /-- INIT_PERIPH_DEFAULT, 42_control.md R153. -/
  | initPeriphDefault
  /-- TX, 40_blocking.md R100. -/
  | tx
  /-- RX, 40_blocking.md R101. -/
  | rx
  /-- TXRX, 40_blocking.md R102. -/
  | txrx
  /-- TX_ASYNC, 41_async.md R124. -/
  | txAsync
  /-- RX_ASYNC, 41_async.md R127. -/
  | rxAsync
  /-- TXRX_ASYNC, 41_async.md R130. -/
  | txrxAsync
  /-- SET_HOOK, 42_control.md R157. -/
  | setHook
  /-- IRQ_ENABLE, 42_control.md R158. -/
  | irqEnable
  /-- IRQ_DISABLE, 42_control.md R159. -/
  | irqDisable
  /-- BUS_ENABLE, 42_control.md R160. -/
  | busEnable
  /-- BUS_DISABLE, 42_control.md R161. -/
  | busDisable
  deriving DecidableEq, Repr

end Sys2Proof
end

