-- ==== Sys2Proof/Decode.lean ====
section
/-! DEFINITION. The decoder of the command byte, total over all 256 values (30_encoding.md R81 to R83), and the
encoder. -/

namespace Sys2Proof

/-- Why a command byte is no command; each is Fault(IllegalCommand) (30_encoding.md R82, R89). -/
inductive DecodeError where
  /-- Bits 7:4 (RSV) are not 0b0000. -/
  | reservedBits
  /-- Bits 7:4 are zero and the opcode is 0x0. -/
  | reservedOpcode
  deriving DecidableEq, Repr

/-- The RSV field, bits 7:4 (30_encoding.md R81). -/
def fieldRsv (c : Byte) : BitVec 4 := c.extractLsb' 4 4

/-- The OP field, bits 3:0 (30_encoding.md R81). -/
def fieldOp (c : Byte) : BitVec 4 := c.extractLsb' 0 4

/-- The opcode map, row by row (30_encoding.md R83). -/
def opcodeMap : List (BitVec 4 × Instr) :=
  [(0x1#4, .init), (0x2#4, .deinit), (0x3#4, .initCtrlDefault), (0x4#4, .initPeriphDefault),
   (0x5#4, .tx), (0x6#4, .rx), (0x7#4, .txrx),
   (0x8#4, .txAsync), (0x9#4, .rxAsync), (0xA#4, .txrxAsync),
   (0xB#4, .setHook), (0xC#4, .irqEnable), (0xD#4, .irqDisable), (0xE#4, .busEnable), (0xF#4, .busDisable)]

/-- Decode a command byte (30_encoding.md R82). -/
def decode (c : Byte) : Except DecodeError Instr :=
  if fieldRsv c ≠ 0#4 then .error .reservedBits
  else
    match opcodeMap.lookup (fieldOp c) with
    | some i => .ok i
    | none => .error .reservedOpcode

/-- The opcode of a command, from the column c of 30_encoding.md R83. -/
def Instr.opcode : Instr → BitVec 4
  | .init => 0x1#4
  | .deinit => 0x2#4
  | .initCtrlDefault => 0x3#4
  | .initPeriphDefault => 0x4#4
  | .tx => 0x5#4
  | .rx => 0x6#4
  | .txrx => 0x7#4
  | .txAsync => 0x8#4
  | .rxAsync => 0x9#4
  | .txrxAsync => 0xA#4
  | .setHook => 0xB#4
  | .irqEnable => 0xC#4
  | .irqDisable => 0xD#4
  | .busEnable => 0xE#4
  | .busDisable => 0xF#4

/-- The command byte of a command: RSV = 0b0000 above the opcode (30_encoding.md R81). -/
def encode (i : Instr) : Byte := 0b0000#4 ++ i.opcode

/-- The command the decoder reads from an instruction whose bits are `w`: the bits above `nbits` are zero, and a
write to CMD keeps the low 8 bits (30_encoding.md R81). -/
def decodeTableWord (nbits w : Nat) : Option Instr :=
  match decode (BitVec.ofNat 8 (w % 2 ^ nbits)) with
  | .ok i => some i
  | .error _ => none

end Sys2Proof
end

