-- ==== Sys2Proof/Machine/State.lean ====
section
/-! DEFINITION. The state of the block: every piece of state 10_state.md names, the launch arguments a step needs,
the model's own schedule fields, and the state after reset (70_reset_and_hazards.md R240). -/

namespace Sys2Proof.Machine

/-- S.mode (10_state.md R38). -/
inductive Mode where
  | idle
  | tx
  | rx
  | txrx
  deriving DecidableEq, Repr

/-- The kind of a blocking command in progress (10_state.md R48); B.kind = None is `none`. -/
inductive Kind where
  | tx
  | rx
  | txrx
  deriving DecidableEq, Repr

/-- B.phase (10_state.md R48). -/
inductive Phase where
  | start
  | wait
  | finish
  deriving DecidableEq, Repr

/-- The outcome of a completed command, as RESULT encodes it (10_state.md R31). -/
inductive Result where
  | ok
  | timedOut
  | busyIgnored
  deriving DecidableEq, Repr

/-- The fault codes of 60_exceptions.md R217. -/
inductive FaultCode where
  | illegalCommand
  | illegalRegisterAccess
  | illegalConfig
  | bufferRange
  | bufferRace
  | writeWhileBusy
  | blockingWithIrqEnabled
  | blockingWhileAsyncActive
  | hookUnset
  deriving DecidableEq, Repr

/-- What `raise Fault(code)` carries: the code and the recorded info (60_exceptions.md R216, R217). -/
structure Trap where
  code : FaultCode
  info : Nat
  deriving DecidableEq, Repr

/-- The events of S.trace (10_state.md R50). -/
inductive Event where
  | dataWr (b : Byte) (accepted : Bool)
  | dataRd (b : Byte)
  | xferStart (out : Byte)
  | xferDone (out received : Byte)
  | xferAbort
  | irqTaken (m : Mode)
  | notify (h : Nat)
  | spin (i t : Nat)
  | timedOut (i : Nat)
  | done (op : Instr) (r : Result)
  | hostRd (r v : Nat)
  | hostRdMem (a : Nat) (v : Byte)
  | faultEv (code : FaultCode) (info : Nat)
  deriving DecidableEq, Repr

/-- One step of one agent (00_scope.md R3). The two moves of the remote party in peripheral role are that it
clocks the bus and that it does not (43_serial_engine.md R174; log 9). -/
inductive Move where
  /-- Foreground: a host operation or a blocking micro-step. -/
  | foreground
  /-- Interrupt: the interrupt step of 60_exceptions.md R203. -/
  | interrupt
  /-- Bus: an exchange completes with the received byte `b` (43_serial_engine.md R175). -/
  | exchangeDone (b : Byte)
  /-- Bus: the remote controller starts an exchange (43_serial_engine.md R174). -/
  | peerStart
  /-- The remote controller starts none for now; nothing changes (log 9). -/
  | peerWait
  deriving DecidableEq, Repr

/-- The six argument registers, registers 4 to 9 (10_state.md R25 to R30). -/
structure Args where
  tx : Nat
  rx : Nat
  size : Nat
  timeout : Nat
  cfg : Byte
  hook : Nat
  deriving DecidableEq, Repr

/-- TransferState without the hook (10_state.md R38 to R41). -/
structure Transfer where
  mode : Mode
  txCur : Nat
  rxCur : Nat
  remaining : Nat
  deriving DecidableEq, Repr

/-- The ghost regions of the async transfer (10_state.md R43). -/
structure Ghost where
  txLo : Nat
  txHi : Nat
  rxLo : Nat
  rxHi : Nat
  deriving DecidableEq, Repr

/-- The blocking engine, the fields B.* (10_state.md R48). -/
structure Blocking where
  kind : Option Kind
  phase : Phase
  n : Nat
  i : Nat
  t : Nat
  timeout : Nat
  txb : Nat
  rxb : Nat
  late : Nat
  deriving DecidableEq, Repr

/-- The state of the block. -/
structure State where
  /-- The launch's parameters (00_scope.md R5); no step writes them (log 2). -/
  par : Params
  /-- The host operation stream (30_encoding.md R80); no step writes it (log 6). -/
  ops : List HostOp
  /-- CTRL, register 0 (10_state.md R21). -/
  ctrl : Byte
  /-- STATUS, register 1 (10_state.md R22). -/
  status : Byte
  /-- ARG_TX to ARG_HOOK, registers 4 to 9 (10_state.md R25 to R30). -/
  arg : Args
  /-- RESULT, register 10 (10_state.md R31). -/
  result : Byte
  /-- TO_COUNT, register 12 (10_state.md R33). -/
  toCount : Nat
  /-- S.mode, S.tx_cur, S.rx_cur, S.remaining (10_state.md R38 to R41). -/
  xfer : Transfer
  /-- S.tx_lo, S.tx_hi, S.rx_lo, S.rx_hi (10_state.md R43). -/
  ghost : Ghost
  /-- S.hook (10_state.md R42). -/
  hook : Nat
  /-- S.tx_shift, the write side of DATA (10_state.md R45). -/
  txShift : Byte
  /-- S.rx_latch, the read side of DATA (10_state.md R46). -/
  rxLatch : Byte
  /-- S.xfer_busy (10_state.md R47). -/
  xferBusy : Bool
  /-- B.kind, B.phase, B.n, B.i, B.t, B.timeout, B.txb, B.rxb, B.to (10_state.md R48). -/
  blk : Blocking
  /-- S.cpc (10_state.md R49). -/
  cpc : Nat
  /-- S.trace, oldest event first (10_state.md R50). -/
  trace : List Event
  /-- S.fault (10_state.md R51). -/
  fault : Byte
  /-- Caller memory in canonical form (20_memory.md R60; log 5). -/
  mem : List Host.Cell
  /-- The model's own: the next moves, as far as they are written down (log 1). -/
  sched : List Move
  /-- The model's own: how many steps were taken, the argument of the free values (log 1). -/
  tick : Nat
  deriving DecidableEq, Repr

/-- Why `step` stops. No command and no host operation stops: a raised fault of 60_exceptions.md R217 is a next
state with S.fault set (log 7). -/
inductive Fault where
  /-- `step`, where S.fault holds a code: "From then on no agent has any step" (60_exceptions.md R216). Safe. -/
  | halted (code : Byte)
  /-- `step`, where no agent has a step and the state is final (70_reset_and_hazards.md R265). Safe. -/
  | finished
  /-- `step`, where no agent has a step and the state is not final (70_reset_and_hazards.md R265). Safe. -/
  | stuck
  deriving DecidableEq, Repr

/-- Why an instruction has no meaning. -/
inductive Refusal where
  /-- `exec`'s refused arms, for an instruction not modelled yet; no arm is refused in this model. Safe. -/
  | notModelled (mnemonic : String)
  deriving DecidableEq, Repr

/-- The parameters at launch: the open ones are free, P_STRICT_BLOCKING_IE is decided true and
P_UNSET_HOOK_FAULTS is decided false (00_scope.md section 5; log 2). -/
def launchParams : Params :=
  { Config.params with strictBlockingIe := true, unsetHookFaults := false }

/-- The state after power-on (70_reset_and_hazards.md R240), with an empty host stream (log 6). -/
def State.reset : State where
  par := launchParams
  ops := []
  ctrl := 0x00#8
  status := 0x00#8
  arg := { tx := 0, rx := 0, size := 0, timeout := 0, cfg := 0x00#8, hook := 0 }
  result := 0x00#8
  toCount := 0
  xfer := { mode := .idle, txCur := 0, rxCur := 0, remaining := 0 }
  ghost := { txLo := 0, txHi := 0, rxLo := 0, rxHi := 0 }
  hook := 0
  txShift := Config.resetTxShift
  rxLatch := Config.resetRxLatch
  xferBusy := false
  blk :=
    { kind := none, phase := .start, n := 0, i := 0, t := 0, timeout := 0, txb := 0, rxb := 0, late := 0 }
  cpc := 0
  trace := []
  fault := 0x00#8
  mem := []
  sched := []
  tick := 0

end Sys2Proof.Machine
end

