-- ==== Sys2Proof/Machine/Flags.lean ====
section
/-! DEFINITION. The fields of CTRL, STATUS and SEQ_STATUS, the flag TC, and the numeric codes of modes, results and
faults. -/

namespace Sys2Proof.Machine

/-- `v[k]` of an 8-bit value (00_scope.md R6). -/
def bit (v : Byte) (k : Nat) : Bool := v.getLsbD k

/-- `v` with bit `k` set to `b` and every other bit as it was. -/
def setBit (v : Byte) (k : Nat) (b : Bool) : Byte :=
  if b then v ||| BitVec.twoPow 8 k else v &&& ~~~(BitVec.twoPow 8 k)

/-- CTRL.IE, bit 7 (10_state.md R21). -/
def State.ie (s : State) : Bool := bit s.ctrl 7

/-- CTRL.EN, bit 6. -/
def State.en (s : State) : Bool := bit s.ctrl 6

/-- CTRL.DORD, bit 5: true is LSB first. -/
def State.dord (s : State) : Bool := bit s.ctrl 5

/-- CTRL.ROLE, bit 4: true is controller. -/
def State.role (s : State) : Bool := bit s.ctrl 4

/-- CTRL.CPOL, bit 3. -/
def State.cpol (s : State) : Bool := bit s.ctrl 3

/-- CTRL.CPHA, bit 2. -/
def State.cpha (s : State) : Bool := bit s.ctrl 2

/-- STATUS.TC, bit 7 (10_state.md R22, R53). -/
def State.tc (s : State) : Bool := bit s.status 7

/-- STATUS.DIV2, bit 0 (10_state.md R22). -/
def State.div2 (s : State) : Bool := bit s.status 0

/-- The clock-divider selector `{STATUS.DIV2, CTRL.DIV[1:0]}` (30_encoding.md R88). -/
def State.dividerSelector (s : State) : BitVec 3 := BitVec.ofBool s.div2 ++ s.ctrl.extractLsb' 0 2

/-- STATUS as the host reads it: bits 6:1 are hardwired 0 (10_state.md R22). -/
def State.statusView (s : State) : Byte := s.status &&& 0x81#8

/-- RESULT as the host reads it: bits 7:2 read 0 (10_state.md R31). -/
def State.resultView (s : State) : Byte := s.result &&& 0x03#8

/-- The code of S.mode in SEQ_STATUS (10_state.md R32). -/
def Mode.code : Mode → BitVec 2
  | .idle => 0#2
  | .tx => 1#2
  | .rx => 2#2
  | .txrx => 3#2

/-- SEQ_STATUS.BUSY: S.remaining ≠ 0 (10_state.md R32). -/
def State.seqBusy (s : State) : Bool := decide (s.xfer.remaining ≠ 0)

/-- SEQ_STATUS.ACTIVE: S.mode ≠ Idle (10_state.md R32). -/
def State.seqActive (s : State) : Bool := decide (s.xfer.mode ≠ .idle)

/-- SEQ_STATUS: bits 7:5 zero, XFER, MODE, ACTIVE, BUSY (10_state.md R32). -/
def State.seqStatus (s : State) : Byte :=
  0b000#3 ++ BitVec.ofBool s.xferBusy ++ s.xfer.mode.code ++ BitVec.ofBool s.seqActive ++ BitVec.ofBool s.seqBusy

/-- The value of RESULT for an outcome (10_state.md R31). -/
def Result.byte : Result → Byte
  | .ok => 0x00#8
  | .timedOut => 0x01#8
  | .busyIgnored => 0x02#8

/-- The number of a fault code (60_exceptions.md R217). -/
def FaultCode.byte : FaultCode → Byte
  | .illegalCommand => 0x01#8
  | .illegalRegisterAccess => 0x02#8
  | .illegalConfig => 0x03#8
  | .bufferRange => 0x04#8
  | .bufferRace => 0x05#8
  | .writeWhileBusy => 0x06#8
  | .blockingWithIrqEnabled => 0x07#8
  | .blockingWhileAsyncActive => 0x08#8
  | .hookUnset => 0x09#8

/-- The CTRL image of a configuration value: `{0b0, 0b1, g[5:0]}` (30_encoding.md R87). -/
def ctrlImage (g : Byte) : Byte := 0b01#2 ++ g.extractLsb' 0 6

/-- P_DEFAULT_CONTROLLER_CFG: bit 7 is 0 and bit 4 is 1, the rest is open (42_control.md R152; log 16). -/
def controllerDefault (p : Params) : Byte := setBit (setBit p.ctrlDefaultOpen 7 false) 4 true

/-- P_DEFAULT_PERIPHERAL_CFG: bits 7 and 4 are 0, the rest is open (42_control.md R153; log 16). -/
def peripheralDefault (p : Params) : Byte := setBit (setBit p.periphDefaultOpen 7 false) 4 false

/-- The interrupt is pending exactly while TC = 1 and IE = 1 (60_exceptions.md R201). -/
def State.irqPending (s : State) : Bool := s.tc && s.ie

/-- A transfer is draining: S.remaining = 0 and S.mode ≠ Idle (41_async.md R146). -/
def State.draining (s : State) : Bool := decide (s.xfer.remaining = 0) && s.seqActive

end Sys2Proof.Machine
end

