-- ==== Sys2Proof/Machine/Ops.lean ====
section
/-! DEFINITION. The named operations every meaning is built from: caller memory, the register file, the trace,
raising a fault, interrupt entry and return, DATA's two primitives, and the completion of a command. A part of a step
that may fault answers `Except Trap State`; `commit` turns it into the step's outcome. -/

namespace Sys2Proof.Machine

/-- A value written to a field of width `w` (00_scope.md R7). -/
def truncTo (w v : Nat) : Nat := v % 2 ^ w

/-- The value `v + 1` of a field of width `w` (00_scope.md R7, R8). -/
def incr (w v : Nat) : Nat := truncTo w (v + 1)

/-- `emit E` (00_scope.md R9, 10_state.md R50). -/
def State.emit (s : State) (e : Event) : State := { s with trace := s.trace ++ [e] }

/-- `STATUS.TC <- b`. -/
def State.putTc (s : State) (b : Bool) : State := { s with status := setBit s.status 7 b }

/-- `pc <- S.cpc + 1` (10_state.md R49). -/
def State.nextOp (s : State) : State := { s with cpc := s.cpc + 1 }

/-- The end of a command: `x[RESULT] <- r; emit Done(op, r); pc <- S.cpc + 1` (10_state.md R31, R49). -/
def State.complete (s : State) (op : Instr) (r : Result) : State :=
  { s with result := r.byte, trace := s.trace ++ [.done op r], cpc := s.cpc + 1 }

/-- Raising a fault in the step that began in `s`: every other effect is undone, S.fault takes the code and FaultEv
is emitted (60_exceptions.md R216; log 7). -/
def raiseFault (f : Trap) (s : State) : State :=
  { s with fault := f.code.byte, trace := s.trace ++ [.faultEv f.code f.info] }

/-- The outcome of the step that began in `s` (00_scope.md R10). -/
def commit (s : State) (r : Except Trap State) : Host.Outcome State Fault Refusal :=
  match r with
  | .ok t => .next t
  | .error f => .next (raiseFault f s)

/-- Interrupt entry: `emit IrqTaken(S.mode); STATUS.TC <- 0` (60_exceptions.md R203). Nothing is saved and no mode
changes (60_exceptions.md R204). -/
def interruptEntry (s : State) : State := (s.emit (.irqTaken s.xfer.mode)).putTc false

/-- Return from the interrupt: the end of the step, which restores nothing (60_exceptions.md R205). -/
def interruptReturn (s : State) : State := s

/-- What a byte of caller memory that the list does not hold reads as (log 5). -/
def Memory.unlisted : Byte := 0x00#8

/-- The byte at address `a`. -/
def Memory.read : List Host.Cell → Nat → Byte
  | [], _ => Memory.unlisted
  | (b, v) :: m, a => if b = a then v else Memory.read m a

/-- A cell at the head of `m`, unless it holds what an unlisted address reads as. -/
def Memory.cons (a : Nat) (v : Byte) (m : List Host.Cell) : List Host.Cell :=
  if v = Memory.unlisted then m else (a, v) :: m

/-- Write `v` at address `a`, keeping the canonical form. -/
def Memory.write : List Host.Cell → Nat → Byte → List Host.Cell
  | [], a, v => Memory.cons a v []
  | (b, w) :: m, a, v =>
    if a < b then Memory.cons a v ((b, w) :: m)
    else if a = b then Memory.cons a v m
    else (b, w) :: Memory.write m a v

/-- The canonical form: addresses strictly rising, and no cell that holds what an unlisted address reads as. -/
def Memory.wf : List Host.Cell → Bool
  | [] => true
  | (a, v) :: m => decide (v ≠ Memory.unlisted) && m.all (fun c => decide (a < c.1)) && Memory.wf m

/-- `a ∈ P_MEM`: an address of P_ADDR_BITS bits in one of the regions (20_memory.md R60, R61; log 15). -/
def existsAt (p : Params) (a : Nat) : Bool :=
  decide (a < 2 ^ p.addrBits) && p.regions.any (fun r => decide (r.base ≤ a) && decide (a < r.base + r.size))

/-- `MemRead(a, 1)` (20_memory.md R62). -/
def memRead (a : Nat) (s : State) : Except Trap Byte :=
  if existsAt s.par a then .ok (Memory.read s.mem a) else .error ⟨.bufferRange, a⟩

/-- `MemWrite(a, 1, v)` (20_memory.md R63). -/
def memWrite (a : Nat) (v : Byte) (s : State) : Except Trap State :=
  if existsAt s.par a then .ok { s with mem := Memory.write s.mem a v } else .error ⟨.bufferRange, a⟩

/-- `lo ≤ a < hi`: the half-open region [lo, hi) (10_state.md R43). -/
def within (lo hi a : Nat) : Bool := decide (lo ≤ a) && decide (a < hi)

/-- A MemRead of the block inside the region [lo, hi) of its transfer (20_memory.md R64). -/
def regionRead (lo hi a : Nat) (s : State) : Except Trap Byte :=
  if within lo hi a then memRead a s else .error ⟨.bufferRange, a⟩

/-- A MemWrite of the block inside the region [lo, hi) of its transfer (20_memory.md R64). -/
def regionWrite (lo hi a : Nat) (v : Byte) (s : State) : Except Trap State :=
  if within lo hi a then memWrite a v s else .error ⟨.bufferRange, a⟩

/-- `S.xfer_busy <- 1; emit XferStart(S.tx_shift)` (43_serial_engine.md R173, R174). -/
def startExchange (s : State) : State :=
  { s with xferBusy := true, trace := s.trace ++ [.xferStart s.txShift] }

/-- The effect of an accepted DataWrite before an exchange starts (43_serial_engine.md R171). -/
def loadShift (b : Byte) (s : State) : State :=
  { s with txShift := b, status := setBit s.status 7 false, trace := s.trace ++ [.dataWr b true] }

/-- `DataWrite(b)` (43_serial_engine.md R171, R173). -/
def dataWrite (b : Byte) (s : State) : Except Trap State :=
  if s.xferBusy then
    match s.par.writeWhileBusy with
    | .fault => .error ⟨.writeWhileBusy, b.toNat⟩
    | .drop => .ok (s.emit (.dataWr b false))
  else if s.en && s.role then .ok (startExchange (loadShift b s))
  else .ok (loadShift b s)

/-- The effect of `DataRead()`; the byte it returns is S.rx_latch (43_serial_engine.md R172). -/
def dataRead (s : State) : State :=
  { s with status := setBit s.status 7 false, trace := s.trace ++ [.dataRd s.rxLatch] }

/-- Abort an exchange in progress, if there is one (43_serial_engine.md R176). -/
def abortExchange (s : State) : State :=
  if s.xferBusy then { s with xferBusy := false, trace := s.trace ++ [.xferAbort] } else s

/-- The value of a register the host may read (10_state.md R20 to R37); `none` where a read is illegal
(42_control.md R163). -/
def readReg (s : State) : Nat → Option Nat
  | 0 => some s.ctrl.toNat
  | 1 => some s.statusView.toNat
  | 4 => some s.arg.tx
  | 5 => some s.arg.rx
  | 6 => some s.arg.size
  | 7 => some s.arg.timeout
  | 8 => some s.arg.cfg.toNat
  | 9 => some s.arg.hook
  | 10 => some s.resultView.toNat
  | 11 => some s.seqStatus.toNat
  | 12 => some s.toCount
  | 13 => some s.xfer.remaining
  | 14 => some s.xfer.txCur
  | 15 => some s.xfer.rxCur
  | 16 => some s.fault.toNat
  | _ => none

/-- The argument registers after a host write of `v` to register `r`, truncated to the register's width; `none`
where `r` is no argument register (42_control.md R162). -/
def writeArg (p : Params) (a : Args) (v : Nat) : Nat → Option Args
  | 4 => some { a with tx := truncTo p.addrBits v }
  | 5 => some { a with rx := truncTo p.addrBits v }
  | 6 => some { a with size := truncTo p.sizeBits v }
  | 7 => some { a with timeout := truncTo p.timeoutBits v }
  | 8 => some { a with cfg := BitVec.ofNat 8 v }
  | 9 => some { a with hook := truncTo p.hookBits v }
  | _ => none

end Sys2Proof.Machine
end

