-- ==== Sys2Proof/Machine/Operands.lean ====
section
/-! DEFINITION. Where a command's operands come from: the two addressing modes (20_memory.md R66), the region fit at
issue (R65), and which buffers a kind of transfer uses (30_encoding.md R83, R84). -/

namespace Sys2Proof.Machine

/-- The kinds that read a transmit buffer (40_blocking.md R103). -/
def Kind.sends : Kind → Bool
  | .tx => true
  | .rx => false
  | .txrx => true

/-- The kinds that write a receive buffer (40_blocking.md R103). -/
def Kind.receives : Kind → Bool
  | .tx => false
  | .rx => true
  | .txrx => true

/-- The command a blocking kind belongs to: the op of `Done(B.kind, r)` (40_blocking.md R106). -/
def Kind.instr : Kind → Instr
  | .tx => .tx
  | .rx => .rx
  | .txrx => .txrx

/-- Indexed addressing: byte `i` of a buffer with base `b` (20_memory.md R66, R67). -/
def indexed (b i : Nat) : Nat := b + i

/-- Post-increment addressing: the cursor after the access (20_memory.md R66). -/
def cursorNext (p : Params) (cur : Nat) : Nat := incr p.addrBits cur

/-- `a + n ≤ 2^P_ADDR_BITS`, on unbounded naturals (20_memory.md R65). -/
def regionFits (p : Params) (a n : Nat) : Bool := decide (a + n ≤ 2 ^ p.addrBits)

/-- The modes whose active kind sends the bytes of a transmit region (20_memory.md R68). -/
def Mode.sends : Mode → Bool
  | .idle => false
  | .tx => true
  | .rx => false
  | .txrx => true

/-- The modes whose active kind stores received bytes (20_memory.md R68). -/
def Mode.receives : Mode → Bool
  | .idle => false
  | .tx => false
  | .rx => true
  | .txrx => true

/-- The address lies in the transmit region of an active async transfer (20_memory.md R68). -/
def inActiveTx (s : State) (a : Nat) : Bool := s.xfer.mode.sends && within s.ghost.txLo s.ghost.txHi a

/-- The address lies in the receive region of an active async transfer (20_memory.md R68). -/
def inActiveRx (s : State) (a : Nat) : Bool := s.xfer.mode.receives && within s.ghost.rxLo s.ghost.rxHi a

end Sys2Proof.Machine
end

