-- ==== Sys2Proof/Machine/Async.lean ====
section
/-! DEFINITION. The async transfer state machine: the three arming commands and the advance the interrupt step runs
(41_async.md R120 to R141). -/

namespace Sys2Proof.Machine

/-- An access to the byte at `a` of the transmit region followed by its DataWrite: `DataWrite(MemRead(a, 1))`
(41_async.md R124, R138, R140). -/
def sendByte (a : Nat) (s : State) : Except Trap State :=
  match regionRead s.ghost.txLo s.ghost.txHi a s with
  | .error f => .error f
  | .ok b => dataWrite b s

/-- `MemWrite(a, 1, DataRead())` in the receive region (41_async.md R139 to R141). -/
def storeByte (a : Nat) (s : State) : Except Trap State :=
  regionWrite s.ghost.rxLo s.ghost.rxHi a s.rxLatch (dataRead s)

/-- TX_ASYNC once it is admitted with a size above 0 (41_async.md R124). -/
def armTx (a n : Nat) (s : State) : Except Trap State :=
  if ¬ regionFits s.par a n then .error ⟨.bufferRange, a⟩
  else
    match sendByte a
        { s with ghost := { s.ghost with txLo := a, txHi := a + n }, xfer := { s.xfer with mode := .tx } } with
    | .error f => .error f
    | .ok t => .ok { t with xfer := { t.xfer with txCur := cursorNext s.par a, remaining := n - 1 } }

/-- RX_ASYNC once it is admitted: no access (41_async.md R127). -/
def armRx (b n : Nat) (s : State) : Except Trap State :=
  if n > 0 ∧ ¬ regionFits s.par b n then .error ⟨.bufferRange, b⟩
  else
    .ok
      { s with
        ghost := { s.ghost with rxLo := b, rxHi := b + n }
        xfer := { s.xfer with mode := .rx, rxCur := b, remaining := n } }

/-- TXRX_ASYNC once it is admitted with a size above 0 (41_async.md R130; log 12). -/
def armTxrx (a b n : Nat) (s : State) : Except Trap State :=
  if ¬ regionFits s.par a n then .error ⟨.bufferRange, a⟩
  else if ¬ regionFits s.par b n then .error ⟨.bufferRange, b⟩
  else
    match sendByte a
        { s with
          ghost := { txLo := a, txHi := a + n, rxLo := b, rxHi := b + n }
          xfer := { s.xfer with mode := .txrx } } with
    | .error f => .error f
    | .ok t => .ok { t with xfer := { t.xfer with txCur := cursorNext s.par a, rxCur := b, remaining := n - 1 } }

/-- Complete an arming command `op` whose arming answered `r`. -/
def completeArming (op : Instr) (r : Except Trap State) : Except Trap State :=
  match r with
  | .error f => .error f
  | .ok t => .ok (t.complete op .ok)

/-- TX_ASYNC: admission first, then the zero test (41_async.md R121 to R124). -/
def execTxAsync (s : State) : Host.Outcome State Fault Refusal :=
  commit s <|
    if s.xfer.remaining ≠ 0 then .ok (s.complete .txAsync .busyIgnored)
    else if s.arg.size = 0 then .ok (s.complete .txAsync .ok)
    else completeArming .txAsync (armTx s.arg.tx s.arg.size s)

/-- RX_ASYNC: a size of 0 arms too (41_async.md R121 to R123, R127). -/
def execRxAsync (s : State) : Host.Outcome State Fault Refusal :=
  commit s <|
    if s.xfer.remaining ≠ 0 then .ok (s.complete .rxAsync .busyIgnored)
    else completeArming .rxAsync (armRx s.arg.rx s.arg.size s)

/-- TXRX_ASYNC: admission first, then the zero test (41_async.md R121 to R123, R130). -/
def execTxrxAsync (s : State) : Host.Outcome State Fault Refusal :=
  commit s <|
    if s.xfer.remaining ≠ 0 then .ok (s.complete .txrxAsync .busyIgnored)
    else if s.arg.size = 0 then .ok (s.complete .txrxAsync .ok)
    else completeArming .txrxAsync (armTxrx s.arg.tx s.arg.rx s.arg.size s)

/-- `S.mode <- Idle`. -/
def toIdle (s : State) : State := { s with xfer := { s.xfer with mode := .idle } }

/-- The advance in mode Tx (41_async.md R138). -/
def advanceTx (s : State) : Except Trap State :=
  if s.xfer.remaining = 0 then .ok (toIdle s)
  else
    match sendByte s.xfer.txCur s with
    | .error f => .error f
    | .ok t =>
      .ok
        { t with
          xfer := { t.xfer with txCur := cursorNext s.par s.xfer.txCur, remaining := s.xfer.remaining - 1 } }

/-- The advance in mode Rx (41_async.md R139). -/
def advanceRx (s : State) : Except Trap State :=
  if s.xfer.remaining = 0 then .ok (toIdle s)
  else
    match storeByte s.xfer.rxCur s with
    | .error f => .error f
    | .ok t =>
      .ok
        { t with
          xfer :=
            { t.xfer with
              mode := if s.xfer.remaining - 1 = 0 then .idle else t.xfer.mode
              rxCur := cursorNext s.par s.xfer.rxCur
              remaining := s.xfer.remaining - 1 } }

/-- The advance in mode TxRx: write, then read back, or the one final read (41_async.md R140, R141). -/
def advanceTxrx (s : State) : Except Trap State :=
  if s.xfer.remaining = 0 then
    match storeByte s.xfer.rxCur s with
    | .error f => .error f
    | .ok t => .ok (toIdle t)
  else
    match sendByte s.xfer.txCur s with
    | .error f => .error f
    | .ok t =>
      match storeByte t.xfer.rxCur t with
      | .error f => .error f
      | .ok u =>
        .ok
          { u with
            xfer :=
              { u.xfer with
                txCur := cursorNext s.par s.xfer.txCur
                rxCur := cursorNext s.par s.xfer.rxCur
                remaining := s.xfer.remaining - 1 } }

/-- The advance, one match on S.mode (41_async.md R136, R137). -/
def advance (s : State) : Except Trap State :=
  match s.xfer.mode with
  | .idle => .ok s
  | .tx => advanceTx s
  | .rx => advanceRx s
  | .txrx => advanceTxrx s

/-- The completion notification (60_exceptions.md R206). -/
def notify (s : State) : Except Trap State :=
  if s.hook ≠ 0 then .ok (s.emit (.notify s.hook))
  else if s.par.unsetHookFaults then .error ⟨.hookUnset, 0⟩
  else .ok s

/-- The body of the interrupt step: entry, advance, notify, return (60_exceptions.md R203). -/
def interruptBody (s : State) : Except Trap State :=
  match advance (interruptEntry s) with
  | .error f => .error f
  | .ok t =>
    match notify t with
    | .error f => .error f
    | .ok u => .ok (interruptReturn u)

/-- The interrupt step (60_exceptions.md R203). -/
def interruptStep (s : State) : Host.Outcome State Fault Refusal := commit s (interruptBody s)

end Sys2Proof.Machine
end

