-- ==== Sys2Proof/Machine/Blocking.lean ====
section
/-! DEFINITION. The blocking transfer engine: the issue step of TX, RX and TXRX and the Start, Wait and Finish
micro-steps (40_blocking.md R100 to R106). -/

namespace Sys2Proof.Machine

/-- The blocking engine after an accepted issue: the operands the kind reads are latched (40_blocking.md R103,
30_encoding.md R85; log 13). -/
def latchBlocking (k : Kind) (a : Args) (b : Blocking) : Blocking :=
  { b with
    kind := some k
    phase := .start
    n := a.size
    i := 0
    timeout := a.timeout
    txb := if k.sends then a.tx else b.txb
    rxb := if k.receives then a.rx else b.rxb
    late := 0 }

/-- The issue step of TX, RX or TXRX; its checks are made in the order written (40_blocking.md R103). -/
def issueBlocking (k : Kind) (s : State) : Except Trap State :=
  if s.xfer.mode ≠ .idle ∨ s.xfer.remaining ≠ 0 then
    .error ⟨.blockingWhileAsyncActive, (encode k.instr).toNat⟩
  else if s.par.strictBlockingIe ∧ s.ie then .error ⟨.blockingWithIrqEnabled, (encode k.instr).toNat⟩
  else if s.arg.size = 0 then .ok ({ s with toCount := 0 }.complete k.instr .ok)
  else if k.sends ∧ ¬ regionFits s.par s.arg.tx s.arg.size then .error ⟨.bufferRange, s.arg.tx⟩
  else if k.receives ∧ ¬ regionFits s.par s.arg.rx s.arg.size then .error ⟨.bufferRange, s.arg.rx⟩
  else .ok { s with blk := latchBlocking k s.arg s.blk }

/-- TX (40_blocking.md R100). -/
def execTx (s : State) : Host.Outcome State Fault Refusal := commit s (issueBlocking .tx s)

/-- RX (40_blocking.md R101). -/
def execRx (s : State) : Host.Outcome State Fault Refusal := commit s (issueBlocking .rx s)

/-- TXRX (40_blocking.md R102). -/
def execTxrx (s : State) : Host.Outcome State Fault Refusal := commit s (issueBlocking .txrx s)

/-- `B.t <- B.timeout; B.phase <- Wait` (40_blocking.md R105). -/
def beginWait (s : State) : State := { s with blk := { s.blk with t := s.blk.timeout, phase := .wait } }

/-- The Start micro-step (40_blocking.md R105). -/
def startStep (k : Kind) (s : State) : Except Trap State :=
  if k.sends then
    match regionRead s.blk.txb (s.blk.txb + s.blk.n) (indexed s.blk.txb s.blk.i) s with
    | .error f => .error f
    | .ok b =>
      match dataWrite b s with
      | .error f => .error f
      | .ok t => .ok (beginWait t)
  else .ok (beginWait s)

/-- The Wait micro-step: TC is tested first and never cleared (40_blocking.md R104). -/
def waitStep (s : State) : State :=
  if s.tc then { s with blk := { s.blk with phase := .finish } }
  else if s.blk.t = 0 then
    { s with
      blk := { s.blk with late := incr s.par.sizeBits s.blk.late, phase := .finish }
      trace := s.trace ++ [.timedOut s.blk.i] }
  else
    { s with
      blk := { s.blk with t := s.blk.t - 1 }
      trace := s.trace ++ [.spin s.blk.i s.blk.t] }

/-- RESULT at the end of a blocking command: TimedOut if any byte timed out (40_blocking.md R106). -/
def blockingResult (late : Nat) : Result := if late > 0 then .timedOut else .ok

/-- The end of the Finish micro-step: the next byte, or the end of the command (40_blocking.md R106). -/
def endByte (k : Kind) (s : State) : State :=
  let i := incr s.par.sizeBits s.blk.i
  if i = s.blk.n then
    { s with blk := { s.blk with i := i, kind := none }, toCount := s.blk.late }.complete k.instr
      (blockingResult s.blk.late)
  else { s with blk := { s.blk with i := i, phase := .start } }

/-- The Finish micro-step (40_blocking.md R106). -/
def finishStep (k : Kind) (s : State) : Except Trap State :=
  if k.receives then
    match regionWrite s.blk.rxb (s.blk.rxb + s.blk.n) (indexed s.blk.rxb s.blk.i) s.rxLatch (dataRead s) with
    | .error f => .error f
    | .ok t => .ok (endByte k t)
  else .ok (endByte k s)

/-- The micro-step of a blocking command of kind `k`, by B.phase (40_blocking.md R104 to R106). -/
def microStep (k : Kind) (s : State) : Except Trap State :=
  match s.blk.phase with
  | .start => startStep k s
  | .wait => .ok (waitStep s)
  | .finish => finishStep k s

end Sys2Proof.Machine
end

