-- ==== Sys2Proof/Machine/Control.lean ====
section
/-! DEFINITION. Configuration, hook and peripheral control: INIT, DEINIT, the default initialisations, SET_HOOK, and
the four enable commands (42_control.md R150 to R161). -/

namespace Sys2Proof.Machine

/-- Apply the configuration value `g`: abort an exchange, load CTRL, DIV2 and TC, complete (42_control.md R150,
30_encoding.md R87). -/
def applyConfig (op : Instr) (g : Byte) (s : State) : State :=
  let t := abortExchange s
  { t with ctrl := ctrlImage g, status := setBit (setBit t.status 0 (bit g 6)) 7 false }.complete op .ok

/-- INIT (42_control.md R150). -/
def execInit (s : State) : Host.Outcome State Fault Refusal :=
  commit s <|
    if bit s.arg.cfg 7 then .error ⟨.illegalConfig, s.arg.cfg.toNat⟩
    else .ok (applyConfig .init s.arg.cfg s)

/-- DEINIT (42_control.md R151). -/
def execDeinit (s : State) : Host.Outcome State Fault Refusal :=
  .next ({ abortExchange s with ctrl := 0x00#8, status := 0x00#8 }.complete .deinit .ok)

/-- INIT_CTRL_DEFAULT (42_control.md R152). -/
def execInitCtrlDefault (s : State) : Host.Outcome State Fault Refusal :=
  .next (applyConfig .initCtrlDefault (controllerDefault s.par) s)

/-- INIT_PERIPH_DEFAULT (42_control.md R153). -/
def execInitPeriphDefault (s : State) : Host.Outcome State Fault Refusal :=
  .next (applyConfig .initPeriphDefault (peripheralDefault s.par) s)

/-- SET_HOOK (42_control.md R157). -/
def execSetHook (s : State) : Host.Outcome State Fault Refusal :=
  .next ({ s with hook := s.arg.hook }.complete .setHook .ok)

/-- IRQ_ENABLE (42_control.md R158). -/
def execIrqEnable (s : State) : Host.Outcome State Fault Refusal :=
  .next ({ s with ctrl := setBit s.ctrl 7 true }.complete .irqEnable .ok)

/-- IRQ_DISABLE (42_control.md R159). -/
def execIrqDisable (s : State) : Host.Outcome State Fault Refusal :=
  .next ({ s with ctrl := setBit s.ctrl 7 false }.complete .irqDisable .ok)

/-- BUS_ENABLE: no exchange starts (42_control.md R160). -/
def execBusEnable (s : State) : Host.Outcome State Fault Refusal :=
  .next ({ s with ctrl := setBit s.ctrl 6 true }.complete .busEnable .ok)

/-- BUS_DISABLE (42_control.md R161). -/
def execBusDisable (s : State) : Host.Outcome State Fault Refusal :=
  .next ({ abortExchange s with ctrl := setBit s.ctrl 6 false }.complete .busDisable .ok)

end Sys2Proof.Machine
end

