-- ==== Sys2Proof/Machine/Dispatch.lean ====
section
/-! DEFINITION. exec: one arm per command, each a call of its meaning. -/

namespace Sys2Proof.Machine

open Sys2Proof

def exec (i : Instr) (s : State) : Host.Outcome State Fault Refusal :=
  match i with
  | .init => Sys2Proof.Machine.execInit s
  | .deinit => Sys2Proof.Machine.execDeinit s
  | .initCtrlDefault => Sys2Proof.Machine.execInitCtrlDefault s
  | .initPeriphDefault => Sys2Proof.Machine.execInitPeriphDefault s
  | .tx => Sys2Proof.Machine.execTx s
  | .rx => Sys2Proof.Machine.execRx s
  | .txrx => Sys2Proof.Machine.execTxrx s
  | .txAsync => Sys2Proof.Machine.execTxAsync s
  | .rxAsync => Sys2Proof.Machine.execRxAsync s
  | .txrxAsync => Sys2Proof.Machine.execTxrxAsync s
  | .setHook => Sys2Proof.Machine.execSetHook s
  | .irqEnable => Sys2Proof.Machine.execIrqEnable s
  | .irqDisable => Sys2Proof.Machine.execIrqDisable s
  | .busEnable => Sys2Proof.Machine.execBusEnable s
  | .busDisable => Sys2Proof.Machine.execBusDisable s

end Sys2Proof.Machine
end

