-- ==== Sys2Proof/Machine/HostOps.lean ====
section
/-! DEFINITION. The four host operations and the foreground step (30_encoding.md R80, 42_control.md R162 to R164,
20_memory.md R68). -/

namespace Sys2Proof.Machine

/-- A command issued by the host: the low 8 bits of the value are decoded and executed; a byte that is no command
raises IllegalCommand (30_encoding.md R81, R82). -/
def issueCommand (v : Nat) (s : State) : Host.Outcome State Fault Refusal :=
  match decode (BitVec.ofNat 8 v) with
  | .ok i => exec i s
  | .error _ => commit s (.error ⟨.illegalCommand, (BitVec.ofNat 8 v).toNat⟩)

/-- `HW(r, v)` (42_control.md R162). -/
def hostWrite (r v : Nat) (s : State) : Host.Outcome State Fault Refusal :=
  if r = 3 then issueCommand v s
  else
    commit s <|
      match writeArg s.par s.arg v r with
      | some a => .ok { s with arg := a }.nextOp
      | none => .error ⟨.illegalRegisterAccess, r⟩

/-- `HR(r)`: nothing changes but the trace and S.cpc (42_control.md R163). -/
def hostRead (r : Nat) (s : State) : Host.Outcome State Fault Refusal :=
  commit s <|
    match readReg s r with
    | some v => .ok (s.emit (.hostRd r v)).nextOp
    | none => .error ⟨.illegalRegisterAccess, r⟩

/-- `HMW(a, v)`: the access of R63, then the race check (20_memory.md R68; log 10, log 11). -/
def hostMemWrite (a : Nat) (v : Byte) (s : State) : Host.Outcome State Fault Refusal :=
  commit s <|
    match memWrite a v s with
    | .error f => .error f
    | .ok t => if inActiveTx s a ∨ inActiveRx s a then .error ⟨.bufferRace, a⟩ else .ok t.nextOp

/-- `HMR(a)`: the access of R62, then the race check; the transmit region may be read (20_memory.md R68; log 10,
log 11). -/
def hostMemRead (a : Nat) (s : State) : Host.Outcome State Fault Refusal :=
  commit s <|
    match memRead a s with
    | .error f => .error f
    | .ok v => if inActiveRx s a then .error ⟨.bufferRace, a⟩ else .ok (s.emit (.hostRdMem a v)).nextOp

/-- One host operation (30_encoding.md R80). -/
def hostOpStep (op : HostOp) (s : State) : Host.Outcome State Fault Refusal :=
  match op with
  | .hw r v => hostWrite r v s
  | .hr r => hostRead r s
  | .hmw a v => hostMemWrite a v s
  | .hmr a => hostMemRead a s

/-- The foreground step: a micro-step of the blocking command in progress, else the next host operation
(40_blocking.md R111, 42_control.md R164). -/
def foregroundStep (s : State) : Host.Outcome State Fault Refusal :=
  match s.blk.kind with
  | some k => commit s (microStep k s)
  | none =>
    match s.ops[s.cpc]? with
    | some op => hostOpStep op s
    | none => .fault .finished

/-- The host stream `ops` with `op` as its operation number `k`, filled up with reads of FAULT where it is shorter
(Step.lean's withFetchWord; log 6). -/
def placeOp (op : HostOp) : List HostOp → Nat → List HostOp
  | [], 0 => [op]
  | [], k + 1 => .hr 16 :: placeOp op [] k
  | _ :: rest, 0 => op :: rest
  | o :: rest, k + 1 => o :: placeOp op rest k

end Sys2Proof.Machine
end

