-- ==== Sys2Proof/Machine/Bus.lean ====
section
/-! DEFINITION. The Bus agent's steps (43_serial_engine.md R174, R175), and what the wire carries as far as the spec
describes it (R177, R178, 30_encoding.md R88): data that no step reads. -/

namespace Sys2Proof.Machine

/-- Exchange completion with the received byte `b` (43_serial_engine.md R175). -/
def completeExchange (b : Byte) (s : State) : State :=
  { s with
    rxLatch := b
    status := setBit s.status 7 true
    xferBusy := false
    trace := s.trace ++ [.xferDone s.txShift b] }

/-- The exchange-completion step of the Bus agent. -/
def exchangeDoneStep (b : Byte) (s : State) : Host.Outcome State Fault Refusal := .next (completeExchange b s)

/-- The remote controller starts an exchange (43_serial_engine.md R174). -/
def peerStartStep (s : State) : Host.Outcome State Fault Refusal := .next (startExchange s)

/-- The remote controller starts none for now (log 9). -/
def peerWaitStep (s : State) : Host.Outcome State Fault Refusal := .next s

/-- The bits of a byte in the order they leave the block: 7 down to 0 with DORD = 0, 0 up to 7 with DORD = 1
(43_serial_engine.md R177; log 19). -/
def wireBits (dord : Bool) (b : Byte) : List Bool :=
  if dord then (List.range 8).map (bit b) else (List.range 8).map (fun k => bit b (7 - k))

/-- The byte whose bits arrive as `w`, first bit first: the receive side uses the same order (43_serial_engine.md
R177). -/
def byteOfWire (dord : Bool) (w : List Bool) : Byte :=
  (List.range 8).foldl
    (fun v k => if w.getD k false then setBit v (if dord then k else 7 - k) true else v) 0x00#8

/-- The bits the block shifts out in an exchange, in the order they leave: those of S.tx_shift, in the order CTRL.DORD
sets (43_serial_engine.md R177). -/
def wireOut (s : State) : List Bool := wireBits s.dord s.txShift

/-- The byte the block receives from the bits `w`, first bit first, in the order CTRL.DORD sets (43_serial_engine.md
R177). -/
def wireIn (s : State) (w : List Bool) : Byte := byteOfWire s.dord w

/-- The level the clock line idles at: CPOL = 0 idles low (43_serial_engine.md R178; log 19). -/
def clockIdlesHigh (s : State) : Bool := s.cpol

/-- Whether the leading clock edge samples: CPHA = 0 does (43_serial_engine.md R178; log 19). -/
def samplesOnLeadingEdge (s : State) : Bool := !s.cpha

/-- The ratio of the core clock to the bus clock for a divider selector (30_encoding.md R88; log 19). -/
def dividerRatio (sel : BitVec 3) : Nat :=
  match sel.toNat with
  | 0 => 4
  | 1 => 16
  | 2 => 64
  | 3 => 128
  | 4 => 2
  | 5 => 8
  | 6 => 32
  | _ => 64

end Sys2Proof.Machine
end

