-- ==== Sys2Proof/Machine/Schedule.lean ====
section
/-! DEFINITION. Which agent steps next: when each agent has a step (42_control.md R164, 60_exceptions.md R202,
43_serial_engine.md R174, R175), the free choice among them (00_scope.md R4; log 1), and what a chosen move does. -/

namespace Sys2Proof.Machine

/-- The foreground has a step (42_control.md R164, 40_blocking.md R111). -/
def foregroundEnabled (s : State) : Bool :=
  s.blk.kind.isSome || decide (s.cpc < s.ops.length)

/-- The remote controller may start an exchange (43_serial_engine.md R174). -/
def peerEnabled (s : State) : Bool := s.en && !s.role && !s.xferBusy

/-- The agent of the move has that step; in a faulted state none has (60_exceptions.md R216). -/
def enabled (s : State) (m : Move) : Bool :=
  decide (s.fault = 0x00#8) &&
    match m with
    | .foreground => foregroundEnabled s
    | .interrupt => s.irqPending
    | .exchangeDone _ => s.xferBusy
    | .peerStart => peerEnabled s
    | .peerWait => peerEnabled s

/-- The enabled moves; the byte of a completion is the free value of this step (43_serial_engine.md R175, R180). -/
def enabledMoves (s : State) : List Move :=
  [.foreground, .interrupt, .exchangeDone (Config.peerByte s.tick), .peerStart, .peerWait].filter (enabled s)

/-- The free choice: the only enabled move where there is one, else any of them (00_scope.md R4; log 1). -/
def freeMove (s : State) : Option Move :=
  match enabledMoves s with
  | [] => none
  | [m] => some m
  | m :: n :: ms => (m :: n :: ms)[Config.choice s.tick % (m :: n :: ms).length]?

/-- The move the next step takes: the schedule's next entry where it is an enabled move, else the free choice
(log 1). -/
def nextMove (s : State) : Option Move :=
  match s.sched with
  | [] => freeMove s
  | m :: _ => if enabled s m then some m else freeMove s

/-- What a move does. -/
def runMove (m : Move) (s : State) : Host.Outcome State Fault Refusal :=
  match m with
  | .foreground => foregroundStep s
  | .interrupt => interruptStep s
  | .exchangeDone b => exchangeDoneStep b s
  | .peerStart => peerStartStep s
  | .peerWait => peerWaitStep s

/-- The model's own fields after a step: the schedule's next entry is used up and the step is counted (log 1). -/
def State.tickOn (s : State) : State := { s with sched := s.sched.tail, tick := s.tick + 1 }

/-- The outcome of a move with the model's own fields moved on. -/
def settleStep (r : Host.Outcome State Fault Refusal) : Host.Outcome State Fault Refusal :=
  match r with
  | .next t => .next t.tickOn
  | .fault f => .fault f
  | .refused f => .refused f

/-- A final state (70_reset_and_hazards.md R265). -/
def isFinal (s : State) : Bool :=
  decide (s.fault = 0x00#8) && decide (s.cpc = s.ops.length) && s.blk.kind.isNone && !s.xferBusy && !s.irqPending &&
    decide (s.xfer.mode = .idle) && decide (s.xfer.remaining = 0)

/-- Why no agent has a step (60_exceptions.md R216, 70_reset_and_hazards.md R265; log 8). -/
def stopReason (s : State) : Fault :=
  if s.fault ≠ 0x00#8 then .halted s.fault
  else if isFinal s then .finished
  else .stuck

end Sys2Proof.Machine
end

