-- ==== Sys2Proof/Machine/Step.lean ====
section
/-! DEFINITION. step: one atomic step of one agent (00_scope.md R3, R4), and the state whose next step runs a given
command. -/

namespace Sys2Proof.Machine

/-- One step of the block. -/
def step (s : State) : Host.Outcome State Fault Refusal :=
  match nextMove s with
  | some m => settleStep (runMove m s)
  | none => .fault (stopReason s)

/-- `s` with the command whose bits are `w` as its next host operation, a write to CMD, and the foreground as the
next agent to step; the foreground takes a host operation only where no fault is raised and no blocking command is in
progress (log 6). -/
def State.withFetchWord (s : State) (nbits w : Nat) : State :=
  { s with
    ops := placeOp (.hw 3 (w % 2 ^ nbits)) s.ops s.cpc
    sched := .foreground :: s.sched
    fault := 0x00#8
    blk := { s.blk with kind := none } }

end Sys2Proof.Machine
end

