-- ==== Sys2Proof/Machine/Asm.lean ====
section
/-! DEFINITION. The assembler's view of a host operation stream: the register and command names, the text of a line
(30_encoding.md R90) and the pseudo-instructions (R91). No step reads text (log 21). -/

namespace Sys2Proof.Machine

/-- The mnemonic of a command (30_encoding.md R83). -/
def mnemonic : Instr → String
  | .init => "INIT"
  | .deinit => "DEINIT"
  | .initCtrlDefault => "INIT_CTRL_DEFAULT"
  | .initPeriphDefault => "INIT_PERIPH_DEFAULT"
  | .tx => "TX"
  | .rx => "RX"
  | .txrx => "TXRX"
  | .txAsync => "TX_ASYNC"
  | .rxAsync => "RX_ASYNC"
  | .txrxAsync => "TXRX_ASYNC"
  | .setHook => "SET_HOOK"
  | .irqEnable => "IRQ_ENABLE"
  | .irqDisable => "IRQ_DISABLE"
  | .busEnable => "BUS_ENABLE"
  | .busDisable => "BUS_DISABLE"

/-- The register names, register 0 first (10_state.md R20). -/
def registerNames : List String :=
  ["CTRL", "STATUS", "DATA", "CMD", "ARG_TX", "ARG_RX", "ARG_SIZE", "ARG_TIMEOUT", "ARG_CFG", "ARG_HOOK", "RESULT",
    "SEQ_STATUS", "TO_COUNT", "REMAINING", "TX_CUR", "RX_CUR", "FAULT"]

/-- The command write that a bare mnemonic means (30_encoding.md R90). -/
def commandWrite (i : Instr) : HostOp := .hw 3 (encode i).toNat

/-- A pseudo-instruction: a command with the values of the arguments it reads (30_encoding.md R91). -/
inductive Pseudo where
  | init (g : Nat)
  | deinit
  | initCtrlDefault
  | initPeriphDefault
  | tx (a n t : Nat)
  | rx (b n t : Nat)
  | txrx (a b n t : Nat)
  | txAsync (a n : Nat)
  | rxAsync (b n : Nat)
  | txrxAsync (a b n : Nat)
  | setHook (k : Nat)
  | irqEnable
  | irqDisable
  | busEnable
  | busDisable
  deriving DecidableEq, Repr

/-- The expansion: the argument writes in the order listed, then the command write (30_encoding.md R91). -/
def Pseudo.expand : Pseudo → List HostOp
  | .init g => [.hw 8 g, commandWrite .init]
  | .deinit => [commandWrite .deinit]
  | .initCtrlDefault => [commandWrite .initCtrlDefault]
  | .initPeriphDefault => [commandWrite .initPeriphDefault]
  | .tx a n t => [.hw 4 a, .hw 6 n, .hw 7 t, commandWrite .tx]
  | .rx b n t => [.hw 5 b, .hw 6 n, .hw 7 t, commandWrite .rx]
  | .txrx a b n t => [.hw 4 a, .hw 5 b, .hw 6 n, .hw 7 t, commandWrite .txrx]
  | .txAsync a n => [.hw 4 a, .hw 6 n, commandWrite .txAsync]
  | .rxAsync b n => [.hw 5 b, .hw 6 n, commandWrite .rxAsync]
  | .txrxAsync a b n => [.hw 4 a, .hw 5 b, .hw 6 n, commandWrite .txrxAsync]
  | .setHook k => [.hw 9 k, commandWrite .setHook]
  | .irqEnable => [commandWrite .irqEnable]
  | .irqDisable => [commandWrite .irqDisable]
  | .busEnable => [commandWrite .busEnable]
  | .busDisable => [commandWrite .busDisable]

/-- The value of a decimal or hexadecimal digit. -/
def digitValue (c : Char) : Option Nat :=
  if '0' ≤ c ∧ c ≤ '9' then some (c.toNat - '0'.toNat)
  else if 'a' ≤ c ∧ c ≤ 'f' then some (c.toNat - 'a'.toNat + 10)
  else if 'A' ≤ c ∧ c ≤ 'F' then some (c.toNat - 'A'.toNat + 10)
  else none

/-- Read the digits of a number in a base, most significant first, on top of what was read before. -/
def readDigits (base : Nat) : List Char → Nat → Option Nat
  | [], v => some v
  | c :: cs, v =>
    match digitValue c with
    | some d => if d < base then readDigits base cs (base * v + d) else none
    | none => none

/-- A value: decimal, or hexadecimal after 0x (30_encoding.md R90). -/
def readValue : List Char → Option Nat
  | [] => none
  | '0' :: 'x' :: c :: cs => readDigits 16 (c :: cs) 0
  | cs => readDigits 10 cs 0

/-- A register: its name or its number (30_encoding.md R90). -/
def readRegister (w : List Char) : Option Nat :=
  let k := registerNames.findIdx (fun n => n.toList == w)
  if k < registerNames.length then some k else readValue w

/-- A line without its comment (30_encoding.md R90). -/
def dropComment (cs : List Char) : List Char := cs.takeWhile (fun c => c != ';')

/-- A character between two words of a line. -/
def isSeparator (c : Char) : Bool := c == ' ' || c == ','

/-- The words of a line, given the word read so far; an empty word is none. -/
def readWords : List Char → List Char → List (List Char)
  | [], w => if w.isEmpty then [] else [w]
  | c :: cs, w =>
    if isSeparator c then (if w.isEmpty then readWords cs [] else w :: readWords cs []) else readWords cs (w ++ [c])

/-- The value of the argument `key=value`, where the word is that argument. -/
def readArgument (key : String) (w : List Char) : Option Nat :=
  if key.toList ++ ['='] == w.take (key.toList.length + 1) then readValue (w.drop (key.toList.length + 1)) else none

/-- The values of the arguments with the given keys, in order, where the words are exactly those arguments. -/
def readArguments : List String → List (List Char) → Option (List Nat)
  | [], [] => some []
  | k :: ks, w :: ws =>
    match readArgument k w, readArguments ks ws with
    | some v, some vs => some (v :: vs)
    | _, _ => none
  | _, _ => none

/-- The keys of a command's pseudo-instruction, as R91 writes them. -/
def argumentKeys : Instr → List String
  | .init => ["cfg"]
  | .tx => ["tx", "n", "to"]
  | .rx => ["rx", "n", "to"]
  | .txrx => ["tx", "rx", "n", "to"]
  | .txAsync => ["tx", "n"]
  | .rxAsync => ["rx", "n"]
  | .txrxAsync => ["tx", "rx", "n"]
  | .setHook => ["h"]
  | .deinit | .initCtrlDefault | .initPeriphDefault | .irqEnable | .irqDisable | .busEnable | .busDisable => []

/-- The pseudo-instruction of a command with the values of its arguments (30_encoding.md R91). -/
def toPseudo (i : Instr) (vs : List Nat) : Option Pseudo :=
  match i, vs with
  | .init, [g] => some (.init g)
  | .deinit, [] => some .deinit
  | .initCtrlDefault, [] => some .initCtrlDefault
  | .initPeriphDefault, [] => some .initPeriphDefault
  | .tx, [a, n, t] => some (.tx a n t)
  | .rx, [b, n, t] => some (.rx b n t)
  | .txrx, [a, b, n, t] => some (.txrx a b n t)
  | .txAsync, [a, n] => some (.txAsync a n)
  | .rxAsync, [b, n] => some (.rxAsync b n)
  | .txrxAsync, [a, b, n] => some (.txrxAsync a b n)
  | .setHook, [k] => some (.setHook k)
  | .irqEnable, [] => some .irqEnable
  | .irqDisable, [] => some .irqDisable
  | .busEnable, [] => some .busEnable
  | .busDisable, [] => some .busDisable
  | _, _ => none

/-- The command whose mnemonic the word is (30_encoding.md R83). -/
def readMnemonic (w : List Char) : Option Instr :=
  (opcodeMap.map Prod.snd).find? (fun i => (mnemonic i).toList == w)

/-- A line that begins with a command mnemonic: the bare command, or a pseudo-instruction (30_encoding.md R90, R91). -/
def readCommand (m : List Char) (ws : List (List Char)) : Option (List HostOp) :=
  match readMnemonic m with
  | none => none
  | some i =>
    match ws with
    | [] => some [commandWrite i]
    | _ :: _ =>
      match readArguments (argumentKeys i) ws with
      | some vs => (toPseudo i vs).map Pseudo.expand
      | none => none

/-- The host operations of one line's words (30_encoding.md R90). -/
def readOperation (ws : List (List Char)) : Option (List HostOp) :=
  match ws with
  | [] => some []
  | m :: args =>
    if m == "HW".toList then
      match args with
      | [r, v] =>
        match readRegister r, readValue v with
        | some r, some v => some [.hw r v]
        | _, _ => none
      | _ => none
    else if m == "HR".toList then
      match args with
      | [r] => (readRegister r).map fun r => [HostOp.hr r]
      | _ => none
    else if m == "HMW".toList then
      match args with
      | [a, v] =>
        match readValue a, readValue v with
        | some a, some v => if v < 256 then some [.hmw a (BitVec.ofNat 8 v)] else none
        | _, _ => none
      | _ => none
    else if m == "HMR".toList then
      match args with
      | [a] => (readValue a).map fun a => [HostOp.hmr a]
      | _ => none
    else readCommand m args

/-- The host operations a line of assembler text stands for; `none` where it is no line of R90 or R91 (log 21). -/
def readLine (line : String) : Option (List HostOp) := readOperation (readWords (dropComment line.toList) [])

/-- The host operation stream of a text, one operation or pseudo-instruction a line (30_encoding.md R90). -/
def readStream : List String → Option (List HostOp)
  | [] => some []
  | l :: ls =>
    match readLine l, readStream ls with
    | some xs, some ys => some (xs ++ ys)
    | _, _ => none

end Sys2Proof.Machine
end

