-- ==== Sys2Proof/Machine/Run.lean ====
section
/-! DEFINITION. Runs of the block and how they end: the states of the run from a state, final and stuck states, and the
observation, which is taken at the run's first final state (70_reset_and_hazards.md R265; log 23). -/

namespace Sys2Proof.Machine

/-- The state after one step, where the step answers one. -/
def stepNext (s : State) : Option State :=
  match step s with
  | .next t => some t
  | .fault _ => none
  | .refused _ => none

/-- The run from `s`: its state number `k`, or `none` where the run has fewer steps. -/
def runFrom (s : State) : Nat → Option State
  | 0 => some s
  | k + 1 => (runFrom s k).bind stepNext

/-- A stuck state: no step of the foreground, the interrupt or a bus completion is enabled, and it is not final
(70_reset_and_hazards.md R265). The remote party's start is none of these steps. -/
def isStuck (s : State) : Bool :=
  !enabled s .foreground && !enabled s .interrupt && !enabled s (.exchangeDone 0x00#8) && !isFinal s

/-- What is observed of a state: the trace, the status the block returns to its caller and S.fault (92_eei_decisions.md
D17, 10_state.md R37, R50; log 23). -/
structure Observation where
  trace : List Event
  result : Byte
  toCount : Nat
  seqStatus : Byte
  remaining : Nat
  txCur : Nat
  rxCur : Nat
  fault : Byte
  deriving DecidableEq, Repr

/-- The observation of a state. -/
def State.observation (s : State) : Observation where
  trace := s.trace
  result := s.resultView
  toCount := s.toCount
  seqStatus := s.seqStatus
  remaining := s.xfer.remaining
  txCur := s.xfer.txCur
  rxCur := s.xfer.rxCur
  fault := s.fault

/-- The first final state of the run from `s`, where there is one within `n` steps (70_reset_and_hazards.md R265). -/
def firstFinal : Nat → State → Option State
  | 0, s => if isFinal s then some s else none
  | n + 1, s => if isFinal s then some s else (stepNext s).bind (firstFinal n)

/-- The observation of the run from `s`, taken at its first final state; `none` where the run reaches none within `n`
steps (70_reset_and_hazards.md R265). -/
def runObservation (n : Nat) (s : State) : Option Observation := (firstFinal n s).map State.observation

end Sys2Proof.Machine
end

