-- ==== Sys2Proof/Safety.lean ====
section
/-! DEFINITION. The terms claims use: the invariant of reachable states, launches and reachable states, runs and
how they end, fair runs, and what a trace shows. -/

namespace Sys2Proof.Machine

/-- Every register holds a value of its width (00_scope.md R7, 10_state.md R25 to R48). -/
abbrev WidthsFit (s : State) : Prop :=
  (s.arg.tx < 2 ^ s.par.addrBits ∧ s.arg.rx < 2 ^ s.par.addrBits ∧ s.arg.size < 2 ^ s.par.sizeBits ∧
    s.arg.timeout < 2 ^ s.par.timeoutBits ∧ s.arg.hook < 2 ^ s.par.hookBits) ∧
  (s.toCount < 2 ^ s.par.sizeBits ∧ s.hook < 2 ^ s.par.hookBits) ∧
  (s.xfer.txCur < 2 ^ s.par.addrBits ∧ s.xfer.rxCur < 2 ^ s.par.addrBits ∧
    s.xfer.remaining < 2 ^ s.par.sizeBits) ∧
  (s.blk.n < 2 ^ s.par.sizeBits ∧ s.blk.i < 2 ^ s.par.sizeBits ∧ s.blk.late < 2 ^ s.par.sizeBits ∧
    s.blk.t < 2 ^ s.par.timeoutBits ∧ s.blk.timeout < 2 ^ s.par.timeoutBits ∧
    s.blk.txb < 2 ^ s.par.addrBits ∧ s.blk.rxb < 2 ^ s.par.addrBits)

/-- STATUS bits 6:1 are 0 (10_state.md R22), RESULT is at most 2 (R31), the fault code is at most 9
(60_exceptions.md R217). -/
abbrev CodesLegal (s : State) : Prop :=
  s.status &&& 0x7E#8 = 0x00#8 ∧ s.result.toNat ≤ 2 ∧ s.fault.toNat ≤ 9

/-- Caller memory is canonical and lists existing addresses only (20_memory.md R61, R63). -/
abbrev MemoryOk (s : State) : Prop :=
  Memory.wf s.mem = true ∧ s.mem.all (fun c => existsAt s.par c.1) = true

/-- The laws of TransferState: Idle has nothing remaining (41_async.md R142), and each cursor stands the remaining
count below the end of its region (R148). -/
abbrev TransferOk (s : State) : Prop :=
  (s.xfer.mode = .idle → s.xfer.remaining = 0) ∧
  (s.xfer.mode.sends = true → s.ghost.txHi ≤ 2 ^ s.par.addrBits ∧
    (0 < s.xfer.remaining → s.ghost.txLo ≤ s.xfer.txCur ∧ s.xfer.txCur + s.xfer.remaining = s.ghost.txHi)) ∧
  (s.xfer.mode = .rx → 0 < s.xfer.remaining → s.ghost.rxLo ≤ s.xfer.rxCur ∧
    s.xfer.rxCur + s.xfer.remaining = s.ghost.rxHi ∧ s.ghost.rxHi ≤ 2 ^ s.par.addrBits) ∧
  (s.xfer.mode = .txrx → s.ghost.rxLo ≤ s.xfer.rxCur ∧
    s.xfer.rxCur + s.xfer.remaining + 1 = s.ghost.rxHi ∧ s.ghost.rxHi ≤ 2 ^ s.par.addrBits)

/-- The laws of a blocking command in progress: no async transfer is active and, if strict, the interrupt is masked
(40_blocking.md R103, R111); the index is below the size, at most one byte per index is late, the timer is within its
budget (R108); the buffers fit (20_memory.md R65). -/
abbrev BlockingOk (s : State) : Prop :=
  s.blk.kind.isSome = true →
    (s.xfer.mode = .idle ∧ s.xfer.remaining = 0 ∧ (s.par.strictBlockingIe = true → s.ie = false)) ∧
    (s.blk.i < s.blk.n ∧ s.blk.late ≤ s.blk.i + (if s.blk.phase = .finish then 1 else 0)) ∧
    (s.blk.phase ≠ .start → s.blk.t ≤ s.blk.timeout) ∧
    ((s.blk.kind = some .tx ∨ s.blk.kind = some .txrx) → s.blk.txb + s.blk.n ≤ 2 ^ s.par.addrBits) ∧
    ((s.blk.kind = some .rx ∨ s.blk.kind = some .txrx) → s.blk.rxb + s.blk.n ≤ 2 ^ s.par.addrBits)

/-- The command pointer is inside the stream, strictly so during a blocking command (10_state.md R49), and an exchange
is in progress only while the bus is enabled (43_serial_engine.md R173, R174, R176). -/
abbrev StreamAndBusOk (s : State) : Prop :=
  s.cpc ≤ s.ops.length ∧ (s.blk.kind.isSome = true → s.cpc < s.ops.length) ∧ (s.xferBusy = true → s.en = true)

/-- The invariant of the block: it holds after every launch and every step keeps it. -/
abbrev Coherent (s : State) : Prop :=
  WidthsFit s ∧ CodesLegal s ∧ MemoryOk s ∧ TransferOk s ∧ BlockingOk s ∧ StreamAndBusOk s

/-- A state right after power-on with any launch arguments: parameters, host stream, reset draws, memory contents
and schedule (70_reset_and_hazards.md R240, 10_state.md R54). -/
def IsLaunch (s : State) : Prop :=
  MemoryOk s ∧
    s = { State.reset with
      par := s.par, ops := s.ops, txShift := s.txShift, rxLatch := s.rxLatch, mem := s.mem, sched := s.sched,
      tick := s.tick }

/-- The states a launch can reach. -/
inductive Reachable : State → Prop where
  | launch (s : State) : IsLaunch s → Reachable s
  | step (s t : State) : Reachable s → step s = .next t → Reachable t

/-- A run of the block, finite or endless: each state is the step of the one before, and a finite run goes on until no
step answers a state. -/
def IsRun (run : Nat → Option State) : Prop :=
  (run 0).isSome = true ∧ ∀ k, run (k + 1) = (run k).bind stepNext

/-- State number `k` of the run is `t`, it is final, and no earlier one is: the state at which the run's observation is
taken (70_reset_and_hazards.md R265). -/
def FirstFinal (run : Nat → Option State) (k : Nat) (t : State) : Prop :=
  run k = some t ∧ isFinal t = true ∧ ∀ j < k, ∀ u, run j = some u → isFinal u = false

/-- The run's observation is `o` (70_reset_and_hazards.md R265). -/
def Observes (run : Nat → Option State) (o : Observation) : Prop := ∃ k t, FirstFinal run k t ∧ t.observation = o

/-- The run ends: it has a first final state (70_reset_and_hazards.md R265). -/
def RunEnds (run : Nat → Option State) : Prop := ∃ k t, FirstFinal run k t

/-- The run is stuck: it reaches a stuck state, and no final one before (70_reset_and_hazards.md R265; log 23). -/
def RunIsStuck (run : Nat → Option State) : Prop :=
  ∃ k t, run k = some t ∧ isStuck t = true ∧ ∀ j < k, ∀ u, run j = some u → isFinal u = false

/-- An exchange in progress ends, or the run does (70_reset_and_hazards.md R262; log 17). -/
def BusFair (run : Nat → Option State) : Prop :=
  ∀ k, ∃ j ≥ k, ∀ u, run j = some u → u.xferBusy = false

/-- An interrupt that stays pending is taken (70_reset_and_hazards.md R263; log 17). -/
def InterruptFair (run : Nat → Option State) : Prop :=
  ∀ k, ∃ j ≥ k, ∀ u, run j = some u → u.irqPending = false ∨ nextMove u = some .interrupt

/-- A foreground that always has a step takes one (70_reset_and_hazards.md R264; log 17). -/
def ForegroundFair (run : Nat → Option State) : Prop :=
  ∀ k, ∃ j ≥ k, ∀ u, run j = some u → foregroundEnabled u = false ∨ nextMove u = some .foreground

/-- The bytes of the DataWr events of a trace, in order, dropped ones included (40_blocking.md R107). -/
def dataWrites (es : List Event) : List Byte :=
  es.filterMap fun e => match e with
    | .dataWr b _ => some b
    | _ => none

/-- The bytes of the DataRd events of a trace, in order. -/
def dataReads (es : List Event) : List Byte :=
  es.filterMap fun e => match e with
    | .dataRd b => some b
    | _ => none

/-- The hook identifiers of the Notify events of a trace, in order. -/
def notifications (es : List Event) : List Nat :=
  es.filterMap fun e => match e with
    | .notify h => some h
    | _ => none

/-- One byte of an async transfer: an exchange, started by the remote party if none is in progress, completes with the
byte `d`, and the interrupt is taken (43_serial_engine.md R174, R175, 60_exceptions.md R203). -/
def asyncRound (d : Byte) (s : State) : Except Trap State :=
  interruptBody (completeExchange d (if s.xferBusy then s else startExchange s))

/-- Rounds of an async transfer, one for each byte the remote party sends. -/
def asyncRounds : List Byte → State → Except Trap State
  | [], s => .ok s
  | d :: ds, s =>
    match asyncRound d s with
    | .error f => .error f
    | .ok t => asyncRounds ds t

/-- `k` Wait micro-steps with no other agent between them (40_blocking.md R104). -/
def waitSteps : Nat → State → State
  | 0, s => s
  | k + 1, s => waitSteps k (waitStep s)

/-- How many DataWrites a blocking command of kind `k` has made so far (40_blocking.md R107). -/
def writesSoFar (k : Kind) (b : Blocking) : Nat :=
  if k.sends then b.i + (if b.phase = .start then 0 else 1) else 0

/-- How many DataReads a blocking command of kind `k` has made so far (40_blocking.md R107). -/
def readsSoFar (k : Kind) (b : Blocking) : Nat := if k.receives then b.i else 0

/-- The machine can end an interrupt step without HookUnset (60_exceptions.md R206). -/
abbrev HookAllowed (s : State) : Prop := s.hook ≠ 0 ∨ s.par.unsetHookFaults = false

/-- The addresses of a buffer of `n` bytes at `a` all exist (20_memory.md R61). -/
abbrev BufferExists (p : Params) (a n : Nat) : Prop := ∀ k < n, existsAt p (a + k) = true

/-- A STATUS value with TC cleared and every other bit kept (10_state.md R22, R53). -/
def tcCleared (v : Byte) : Byte := v &&& 0x7F#8

/-- The state after an accepted DataWrite of `b`, written out from 43_serial_engine.md R171 and R173. -/
def acceptedWrite (b : Byte) (s : State) : State :=
  { s with
    txShift := b
    status := tcCleared s.status
    xferBusy := s.en && s.role
    trace := s.trace ++ .dataWr b true :: (if s.en && s.role then [.xferStart b] else []) }

/-- The state after a DataRead, written out from 43_serial_engine.md R172. -/
def readDone (s : State) : State :=
  { s with status := tcCleared s.status, trace := s.trace ++ [.dataRd s.rxLatch] }

/-- `t` is the state `s` with the configuration value `g` applied by the command `op`, written out from
42_control.md R150: what each bit becomes, and that nothing else changes. -/
def ConfigApplied (op : Instr) (g : Byte) (s t : State) : Prop :=
  (bit t.ctrl 7 = false ∧ bit t.ctrl 6 = true ∧ ∀ k < 6, bit t.ctrl k = bit g k) ∧
  (bit t.status 7 = false ∧ bit t.status 0 = bit g 6 ∧ ∀ k, 0 < k → k < 7 → bit t.status k = bit s.status k) ∧
  t = { s with
    ctrl := t.ctrl, status := t.status, xferBusy := false, result := 0x00#8, cpc := s.cpc + 1,
    trace := s.trace ++ (if s.xferBusy then [.xferAbort] else []) ++ [.done op .ok] }

/-- Every byte of caller memory reads the same in both states. -/
def SameMemory (s t : State) : Prop := ∀ a, Memory.read t.mem a = Memory.read s.mem a

/-- Every byte of caller memory outside address `x` reads the same in both states. -/
def SameMemoryBut (x : Nat) (s t : State) : Prop := ∀ a, a ≠ x → Memory.read t.mem a = Memory.read s.mem a

/-- An HMW to the address races with an active async transfer, written out from 20_memory.md R68. -/
abbrev WriteRace (s : State) (a : Nat) : Prop :=
  ((s.xfer.mode = .tx ∨ s.xfer.mode = .txrx) ∧ s.ghost.txLo ≤ a ∧ a < s.ghost.txHi) ∨
  ((s.xfer.mode = .rx ∨ s.xfer.mode = .txrx) ∧ s.ghost.rxLo ≤ a ∧ a < s.ghost.rxHi)

/-- An HMR of the address races with an active async transfer, written out from 20_memory.md R68. -/
abbrev ReadRace (s : State) (a : Nat) : Prop :=
  (s.xfer.mode = .rx ∨ s.xfer.mode = .txrx) ∧ s.ghost.rxLo ≤ a ∧ a < s.ghost.rxHi

end Sys2Proof.Machine
end

