-- ==== Sys2Proof/Certificates/Slice0/Obligations.lean ====
section
/-! DEFINITION. The statements for the provers. Each docstring names the rules it formalises; `raiseFault f s` is the
state with the fault `f` raised, whose effect FaultUndoesItsStep states. -/

open Sys2Proof
open Sys2Proof.Machine

/-! ## Encoding -/

/-- The command bytes of the opcode map decode to their commands (30_encoding.md section 2, R83). -/
def Obligations.CommandBytesDecode : Prop :=
  decode 0x01#8 = .ok .init ∧ decode 0x02#8 = .ok .deinit ∧ decode 0x03#8 = .ok .initCtrlDefault ∧
  decode 0x04#8 = .ok .initPeriphDefault ∧ decode 0x05#8 = .ok .tx ∧ decode 0x06#8 = .ok .rx ∧
  decode 0x07#8 = .ok .txrx ∧ decode 0x08#8 = .ok .txAsync ∧ decode 0x09#8 = .ok .rxAsync ∧
  decode 0x0A#8 = .ok .txrxAsync ∧ decode 0x0B#8 = .ok .setHook ∧ decode 0x0C#8 = .ok .irqEnable ∧
  decode 0x0D#8 = .ok .irqDisable ∧ decode 0x0E#8 = .ok .busEnable ∧ decode 0x0F#8 = .ok .busDisable

/-- R82: a byte with c[7:4] ≠ 0 or c = 0x00 is no command and writing it to CMD raises IllegalCommand; every other
byte is the one command whose opcode is c[3:0], which writing it runs. -/
def Obligations.DecodeIsTotal : Prop :=
  ∀ (v : Nat) (s : State),
    ((BitVec.ofNat 8 v).extractLsb' 4 4 ≠ 0#4 →
      hostWrite 3 v s = .next (raiseFault ⟨.illegalCommand, v % 256⟩ s)) ∧
    ((BitVec.ofNat 8 v).extractLsb' 4 4 = 0#4 → (BitVec.ofNat 8 v).extractLsb' 0 4 = 0#4 →
      hostWrite 3 v s = .next (raiseFault ⟨.illegalCommand, v % 256⟩ s)) ∧
    ((BitVec.ofNat 8 v).extractLsb' 4 4 = 0#4 → (BitVec.ofNat 8 v).extractLsb' 0 4 ≠ 0#4 →
      ∃ i, i.opcode = (BitVec.ofNat 8 v).extractLsb' 0 4 ∧ hostWrite 3 v s = exec i s ∧
        ∀ j : Instr, j.opcode = (BitVec.ofNat 8 v).extractLsb' 0 4 → j = i)

/-- Decoding the byte of a command gives the command, and a byte that decodes to a command is its byte (R81, R83). -/
def Obligations.DecodeEncodeAgree : Prop :=
  (∀ i, decode (encode i) = .ok i) ∧ ∀ c i, decode c = .ok i → c = encode i

/-- R90, R91: a bare mnemonic stands for the write of its byte to CMD, and a pseudo-instruction for its argument writes
in the order listed and then the command write. -/
def Obligations.MnemonicsAndPseudoInstructions : Prop :=
  (∀ i : Instr, readLine (mnemonic i) = some [.hw 3 (encode i).toNat]) ∧
  ∀ a b n t g k : Nat,
    (Pseudo.init g).expand = [.hw 8 g, .hw 3 0x01] ∧
    (Pseudo.tx a n t).expand = [.hw 4 a, .hw 6 n, .hw 7 t, .hw 3 0x05] ∧
    (Pseudo.rx b n t).expand = [.hw 5 b, .hw 6 n, .hw 7 t, .hw 3 0x06] ∧
    (Pseudo.txrx a b n t).expand = [.hw 4 a, .hw 5 b, .hw 6 n, .hw 7 t, .hw 3 0x07] ∧
    (Pseudo.txAsync a n).expand = [.hw 4 a, .hw 6 n, .hw 3 0x08] ∧
    (Pseudo.rxAsync b n).expand = [.hw 5 b, .hw 6 n, .hw 3 0x09] ∧
    (Pseudo.txrxAsync a b n).expand = [.hw 4 a, .hw 5 b, .hw 6 n, .hw 3 0x0A] ∧
    (Pseudo.setHook k).expand = [.hw 9 k, .hw 3 0x0B] ∧
    Pseudo.deinit.expand = [.hw 3 0x02] ∧ Pseudo.initCtrlDefault.expand = [.hw 3 0x03] ∧
    Pseudo.initPeriphDefault.expand = [.hw 3 0x04] ∧ Pseudo.irqEnable.expand = [.hw 3 0x0C] ∧
    Pseudo.irqDisable.expand = [.hw 3 0x0D] ∧ Pseudo.busEnable.expand = [.hw 3 0x0E] ∧
    Pseudo.busDisable.expand = [.hw 3 0x0F]

/-! ## The step -/

/-- A step whose mover is the foreground, with a write to CMD as its next operation, is exec of the decoded command,
with the model's own fields moved on. -/
def Obligations.StepRunsDecodedCommand : Prop :=
  ∀ (s : State) (v : Nat) (i : Instr),
    nextMove s = some .foreground → s.blk.kind = none → s.ops[s.cpc]? = some (.hw 3 v) →
    decode (BitVec.ofNat 8 v) = .ok i →
    step s = settleStep (exec i s) ∧
      ∀ t, exec i s = .next t → step s = .next { t with sched := t.sched.tail, tick := t.tick + 1 }

/-- A command placed by withFetchWord is what the very next step runs, from every state. -/
def Obligations.FetchedWordRuns : Prop :=
  ∀ (s : State) (i : Instr),
    step (s.withFetchWord 8 (encode i).toNat) = settleStep (exec i (s.withFetchWord 8 (encode i).toNat))

/-- The foreground runs the operation at the command pointer, and with no other agent enabled it is the mover
(R164, R4). -/
def Obligations.ForegroundRunsAlone : Prop :=
  ∀ (s : State) (op : HostOp),
    s.fault = 0x00#8 → s.blk.kind = none → s.ops[s.cpc]? = some op →
    s.irqPending = false → s.xferBusy = false → peerEnabled s = false →
    nextMove s = some .foreground ∧ step s = settleStep (hostOpStep op s)

/-- Only an agent that has a step moves, every enabled move can be the next one, and where an agent has a step one
moves: the choice is free (R4, R164, R202, R174, R175). -/
def Obligations.SchedulingIsFreeAmongEnabled : Prop :=
  ∀ s : State,
    (∀ m, nextMove s = some m → enabled s m = true) ∧
    (∀ m, enabled s m = true → nextMove { s with sched := m :: s.sched } = some m) ∧
    ((∃ m, enabled s m = true) → ∃ m, nextMove s = some m)

/-- R216: a raised fault undoes every other effect of its step, sets S.fault and emits FaultEv; from then on no agent
has any step, so S.fault is never cleared. -/
def Obligations.FaultUndoesItsStep : Prop :=
  ∀ s : State,
    (s.fault ≠ 0x00#8 → step s = .fault (.halted s.fault)) ∧
    (∀ t, step s = .next t → t.fault ≠ 0x00#8 →
      ∃ f : Trap, t = { s with
        fault := f.code.byte, trace := s.trace ++ [.faultEv f.code f.info], sched := s.sched.tail,
        tick := s.tick + 1 })

/-- The fault codes of R217: nine numbers, all different, none above 0x09. -/
def Obligations.FaultCodeNumbers : Prop :=
  FaultCode.illegalCommand.byte = 0x01#8 ∧ FaultCode.illegalRegisterAccess.byte = 0x02#8 ∧
  FaultCode.illegalConfig.byte = 0x03#8 ∧ FaultCode.bufferRange.byte = 0x04#8 ∧
  FaultCode.bufferRace.byte = 0x05#8 ∧ FaultCode.writeWhileBusy.byte = 0x06#8 ∧
  FaultCode.blockingWithIrqEnabled.byte = 0x07#8 ∧ FaultCode.blockingWhileAsyncActive.byte = 0x08#8 ∧
  FaultCode.hookUnset.byte = 0x09#8

/-- No step writes the launch arguments: the parameters and the host stream (R54, R77). -/
def Obligations.LaunchArgumentsNeverChange : Prop :=
  ∀ s t : State, step s = .next t → t.par = s.par ∧ t.ops = s.ops

/-- The command pointer stays or moves on by one, and it moves only in a foreground step (R49, R204). -/
def Obligations.CommandPointerAdvances : Prop :=
  ∀ s t : State, step s = .next t →
    t.cpc = s.cpc ∨ (t.cpc = s.cpc + 1 ∧ nextMove s = some .foreground)

/-- No rule reads the trace, and a step only appends to it: two states that differ in the trace only take the same
step and append the same events (R50). -/
def Obligations.TraceIsOnlyObserved : Prop :=
  ∀ s t : State, step s = .next t →
    ∃ es : List Event, t.trace = s.trace ++ es ∧
      ∀ tr : List Event, step { s with trace := tr } = .next { t with trace := tr ++ es }

/-! ## Reset and the invariant -/

/-- After reset every register and field has the value R240 gives it; the reset draws, the memory contents and the
launch arguments are not claimed. -/
def Obligations.ResetValues : Prop :=
  State.reset.ctrl = 0x00#8 ∧ State.reset.status = 0x00#8 ∧
  State.reset.arg = { tx := 0, rx := 0, size := 0, timeout := 0, cfg := 0x00#8, hook := 0 } ∧
  State.reset.result = 0x00#8 ∧ State.reset.seqStatus = 0x00#8 ∧ State.reset.toCount = 0 ∧
  State.reset.xfer = { mode := .idle, txCur := 0, rxCur := 0, remaining := 0 } ∧
  State.reset.ghost = { txLo := 0, txHi := 0, rxLo := 0, rxHi := 0 } ∧
  State.reset.hook = 0 ∧ State.reset.xferBusy = false ∧
  State.reset.blk =
    { kind := none, phase := .start, n := 0, i := 0, t := 0, timeout := 0, txb := 0, rxb := 0, late := 0 } ∧
  State.reset.cpc = 0 ∧ State.reset.trace = [] ∧ State.reset.fault = 0x00#8

/-- The invariant holds at reset and after power-on with any launch arguments. -/
def Obligations.ResetMeetsInvariant : Prop := Coherent State.reset ∧ ∀ s, IsLaunch s → Coherent s

/-- Every step keeps the invariant: registers within their widths (R7), reserved bits zero (R22), legal RESULT and
fault codes (R31, R217), canonical memory inside P_MEM (R61), the state machine and cursor laws of an async transfer
(R142, R148), the counters of a blocking command (R108), and an exchange only while the bus is enabled. -/
def Obligations.StepKeepsInvariant : Prop :=
  ∀ s t : State, Coherent s → step s = .next t → Coherent t

/-- Under the invariant the region check never fires for an async transfer whose own region, that of each buffer its mode
uses, lies in P_MEM: its interrupt step raises no fault while writes are dropped or no exchange is in progress (R64,
R148). A region the mode does not use is free. -/
def Obligations.AsyncAccessesStayInRegion : Prop :=
  ∀ s : State, Coherent s → s.fault = 0x00#8 → HookAllowed s →
    (s.xfer.mode.sends = true → ∀ a, s.ghost.txLo ≤ a → a < s.ghost.txHi → existsAt s.par a = true) →
    (s.xfer.mode.receives = true → ∀ a, s.ghost.rxLo ≤ a → a < s.ghost.rxHi → existsAt s.par a = true) →
    (s.xferBusy = false ∨ s.par.writeWhileBusy = .drop) →
    ∃ t, interruptStep s = .next t ∧ t.fault = 0x00#8

/-! ## Configuration and control -/

/-- R150: INIT applies ARG_CFG, or raises IllegalConfig where its bit 7 is 1. -/
def Obligations.InitAppliesConfig : Prop :=
  decode 0x01#8 = .ok .init ∧
  ∀ s : State,
    (bit s.arg.cfg 7 = true → exec .init s = .next (raiseFault ⟨.illegalConfig, s.arg.cfg.toNat⟩ s)) ∧
    (bit s.arg.cfg 7 = false → ∃ t, exec .init s = .next t ∧ ConfigApplied .init s.arg.cfg s t)

/-- R152, R153: the default initialisations apply the parameter configurations, whose bit 7 is 0 and whose bit 4 is
the role, and never fault. -/
def Obligations.DefaultInitsApplyParameters : Prop :=
  decode 0x03#8 = .ok .initCtrlDefault ∧ decode 0x04#8 = .ok .initPeriphDefault ∧
  ∀ s : State,
    (bit (controllerDefault s.par) 7 = false ∧ bit (controllerDefault s.par) 4 = true ∧
      ∃ t, exec .initCtrlDefault s = .next t ∧ ConfigApplied .initCtrlDefault (controllerDefault s.par) s t) ∧
    (bit (peripheralDefault s.par) 7 = false ∧ bit (peripheralDefault s.par) 4 = false ∧
      ∃ t, exec .initPeriphDefault s = .next t ∧ ConfigApplied .initPeriphDefault (peripheralDefault s.par) s t)

/-- R151: DEINIT aborts an exchange in progress, zeroes CTRL and STATUS, and changes nothing else but RESULT, the
trace and S.cpc. -/
def Obligations.DeinitZeroesControl : Prop :=
  decode 0x02#8 = .ok .deinit ∧
  ∀ s : State, exec .deinit s = .next { s with
    ctrl := 0x00#8, status := 0x00#8, xferBusy := false, result := 0x00#8, cpc := s.cpc + 1,
    trace := s.trace ++ (if s.xferBusy then [.xferAbort] else []) ++ [.done .deinit .ok] }

/-- R154: DEINIT then INIT g from any state leaves the CTRL and STATUS that INIT g leaves from reset. -/
def Obligations.ReinitialiseIsIdempotent : Prop :=
  ∀ (g : Byte) (s : State), bit g 7 = false →
    ∃ t u v, exec .deinit s = .next t ∧
      exec .init { t with arg := { t.arg with cfg := g } } = .next u ∧
      exec .init { State.reset with arg := { State.reset.arg with cfg := g } } = .next v ∧
      u.ctrl = v.ctrl ∧ u.status = v.status

/-- R157: SET_HOOK copies ARG_HOOK to S.hook. -/
def Obligations.SetHookStoresHook : Prop :=
  decode 0x0B#8 = .ok .setHook ∧
  ∀ s : State, exec .setHook s = .next { s with
    hook := s.arg.hook, result := 0x00#8, cpc := s.cpc + 1, trace := s.trace ++ [.done .setHook .ok] }

/-- R158, R159: IRQ_ENABLE and IRQ_DISABLE write CTRL.IE and no other bit; with TC = 1 the interrupt is pending as
soon as IRQ_ENABLE ends. -/
def Obligations.IrqCommandsWriteIe : Prop :=
  decode 0x0C#8 = .ok .irqEnable ∧ decode 0x0D#8 = .ok .irqDisable ∧
  ∀ s : State,
    (∃ t, exec .irqEnable s = .next t ∧ bit t.ctrl 7 = true ∧ (∀ k < 7, bit t.ctrl k = bit s.ctrl k) ∧
      (s.tc = true → t.irqPending = true) ∧
      t = { s with ctrl := t.ctrl, result := 0x00#8, cpc := s.cpc + 1, trace := s.trace ++ [.done .irqEnable .ok] }) ∧
    (∃ t, exec .irqDisable s = .next t ∧ bit t.ctrl 7 = false ∧ (∀ k < 7, bit t.ctrl k = bit s.ctrl k) ∧
      t = { s with ctrl := t.ctrl, result := 0x00#8, cpc := s.cpc + 1, trace := s.trace ++ [.done .irqDisable .ok] })

/-- R160, R161: BUS_ENABLE and BUS_DISABLE write CTRL.EN and no other bit; BUS_ENABLE starts no exchange, BUS_DISABLE
aborts one in progress and leaves TC and S.rx_latch. -/
def Obligations.BusCommandsWriteEn : Prop :=
  decode 0x0E#8 = .ok .busEnable ∧ decode 0x0F#8 = .ok .busDisable ∧
  ∀ s : State,
    (∃ t, exec .busEnable s = .next t ∧ bit t.ctrl 6 = true ∧ (∀ k, k ≠ 6 → bit t.ctrl k = bit s.ctrl k) ∧
      t = { s with ctrl := t.ctrl, result := 0x00#8, cpc := s.cpc + 1, trace := s.trace ++ [.done .busEnable .ok] }) ∧
    (∃ t, exec .busDisable s = .next t ∧ bit t.ctrl 6 = false ∧ (∀ k, k ≠ 6 → bit t.ctrl k = bit s.ctrl k) ∧
      t = { s with
        ctrl := t.ctrl, xferBusy := false, result := 0x00#8, cpc := s.cpc + 1,
        trace := s.trace ++ (if s.xferBusy then [.xferAbort] else []) ++ [.done .busDisable .ok] })

/-- The frame of the nine configuration and control commands: caller memory, the argument registers, TO_COUNT,
TransferState, the ghost regions, both sides of DATA and the blocking engine are unchanged, and S.hook is unchanged
but by SET_HOOK (R155, R52). -/
def Obligations.ControlCommandsFrame : Prop :=
  ∀ (i : Instr) (s t : State),
    i ∈ [.init, .deinit, .initCtrlDefault, .initPeriphDefault, .setHook, .irqEnable, .irqDisable, .busEnable,
      .busDisable] →
    exec i s = .next t →
    SameMemory s t ∧ t.arg = s.arg ∧ t.toCount = s.toCount ∧ t.xfer = s.xfer ∧ t.ghost = s.ghost ∧
      t.txShift = s.txShift ∧ t.rxLatch = s.rxLatch ∧ t.blk = s.blk ∧ (i ≠ .setHook → t.hook = s.hook) ∧
      (i ∈ [.setHook, .irqEnable, .irqDisable, .busEnable, .busDisable] → t.status = s.status) ∧
      (i = .setHook → t.ctrl = s.ctrl)

/-! ## Blocking transfers -/

/-- R103: the issue step of TX, RX and TXRX. Its checks are made in the order written; a size of 0 completes at once;
an accepted issue latches the operands and starts byte 0. -/
def Obligations.BlockingIssue : Prop :=
  decode 0x05#8 = .ok .tx ∧ decode 0x06#8 = .ok .rx ∧ decode 0x07#8 = .ok .txrx ∧
  ∀ (k : Kind) (s : State),
    ((s.xfer.mode ≠ .idle ∨ s.xfer.remaining ≠ 0) →
      exec k.instr s = .next (raiseFault ⟨.blockingWhileAsyncActive, (encode k.instr).toNat⟩ s)) ∧
    (s.xfer.mode = .idle → s.xfer.remaining = 0 →
      (s.par.strictBlockingIe = true → s.ie = true →
        exec k.instr s = .next (raiseFault ⟨.blockingWithIrqEnabled, (encode k.instr).toNat⟩ s)) ∧
      ((s.par.strictBlockingIe = false ∨ s.ie = false) →
        (s.arg.size = 0 → exec k.instr s = .next { s with
          toCount := 0, result := 0x00#8, cpc := s.cpc + 1, trace := s.trace ++ [.done k.instr .ok] }) ∧
        (0 < s.arg.size → k ≠ .rx → 2 ^ s.par.addrBits < s.arg.tx + s.arg.size →
          exec k.instr s = .next (raiseFault ⟨.bufferRange, s.arg.tx⟩ s)) ∧
        (0 < s.arg.size → (k ≠ .rx → s.arg.tx + s.arg.size ≤ 2 ^ s.par.addrBits) → k ≠ .tx →
          2 ^ s.par.addrBits < s.arg.rx + s.arg.size →
          exec k.instr s = .next (raiseFault ⟨.bufferRange, s.arg.rx⟩ s)) ∧
        (0 < s.arg.size → (k ≠ .rx → s.arg.tx + s.arg.size ≤ 2 ^ s.par.addrBits) →
          (k ≠ .tx → s.arg.rx + s.arg.size ≤ 2 ^ s.par.addrBits) →
          ∃ t, exec k.instr s = .next t ∧ t = { s with blk := t.blk } ∧
            t.blk.kind = some k ∧ t.blk.n = s.arg.size ∧ t.blk.timeout = s.arg.timeout ∧
            (k ≠ .rx → t.blk.txb = s.arg.tx) ∧ (k ≠ .tx → t.blk.rxb = s.arg.rx) ∧
            t.blk.i = 0 ∧ t.blk.late = 0 ∧ t.blk.phase = .start)))

/-- R105: the Start micro-step. A kind that sends reads its byte from caller memory and makes the DataWrite; every
kind loads the timer and goes to Wait. -/
def Obligations.StartLoadsByteAndTimer : Prop :=
  ∀ (k : Kind) (s : State), s.blk.kind = some k → s.blk.phase = .start →
    (k = .rx → foregroundStep s = .next { s with blk := { s.blk with t := s.blk.timeout, phase := .wait } }) ∧
    (k ≠ .rx → s.blk.i < s.blk.n →
      (existsAt s.par (s.blk.txb + s.blk.i) = false →
        foregroundStep s = .next (raiseFault ⟨.bufferRange, s.blk.txb + s.blk.i⟩ s)) ∧
      (existsAt s.par (s.blk.txb + s.blk.i) = true → s.xferBusy = false →
        foregroundStep s = .next { acceptedWrite (Memory.read s.mem (s.blk.txb + s.blk.i)) s with
          blk := { s.blk with t := s.blk.timeout, phase := .wait } }) ∧
      (existsAt s.par (s.blk.txb + s.blk.i) = true → s.xferBusy = true → s.par.writeWhileBusy = .drop →
        foregroundStep s = .next { s with
          trace := s.trace ++ [.dataWr (Memory.read s.mem (s.blk.txb + s.blk.i)) false],
          blk := { s.blk with t := s.blk.timeout, phase := .wait } }) ∧
      (existsAt s.par (s.blk.txb + s.blk.i) = true → s.xferBusy = true → s.par.writeWhileBusy = .fault →
        foregroundStep s = .next (raiseFault
          ⟨.writeWhileBusy, (Memory.read s.mem (s.blk.txb + s.blk.i)).toNat⟩ s)))

/-- R104: the Wait micro-step. TC is tested first and never cleared; then the budget; else one spin. -/
def Obligations.WaitTestsFlagThenBudget : Prop :=
  ∀ (k : Kind) (s : State), s.blk.kind = some k → s.blk.phase = .wait →
    (s.tc = true → foregroundStep s = .next { s with blk := { s.blk with phase := .finish } }) ∧
    (s.tc = false → s.blk.t = 0 → foregroundStep s = .next { s with
      blk := { s.blk with late := (s.blk.late + 1) % 2 ^ s.par.sizeBits, phase := .finish },
      trace := s.trace ++ [.timedOut s.blk.i] }) ∧
    (s.tc = false → s.blk.t ≠ 0 → foregroundStep s = .next { s with
      blk := { s.blk with t := s.blk.t - 1 }, trace := s.trace ++ [.spin s.blk.i s.blk.t] })

/-- R106: the Finish micro-step. A kind that receives stores the byte of a DataRead at its slot; then the next byte,
or the end of the command with TO_COUNT, RESULT and Done, which alone moves S.cpc. -/
def Obligations.FinishStoresAndAdvances : Prop :=
  ∀ (k : Kind) (s r : State), s.blk.kind = some k → s.blk.phase = .finish →
    s.blk.i < s.blk.n → s.blk.n < 2 ^ s.par.sizeBits →
    (k ≠ .tx → existsAt s.par (s.blk.rxb + s.blk.i) = false →
      foregroundStep s = .next (raiseFault ⟨.bufferRange, s.blk.rxb + s.blk.i⟩ s)) ∧
    ((k = .tx ∧ r = s ∨
        k ≠ .tx ∧ existsAt s.par (s.blk.rxb + s.blk.i) = true ∧
          r = { readDone s with mem := Memory.write s.mem (s.blk.rxb + s.blk.i) s.rxLatch }) →
      (s.blk.i + 1 ≠ s.blk.n →
        foregroundStep s = .next { r with blk := { s.blk with i := s.blk.i + 1, phase := .start } }) ∧
      (s.blk.i + 1 = s.blk.n →
        foregroundStep s = .next { r with
          blk := { s.blk with i := s.blk.i + 1, kind := none }
          toCount := s.blk.late
          result := if 0 < s.blk.late then 0x01#8 else 0x00#8
          trace := r.trace ++ [.done k.instr (if 0 < s.blk.late then .timedOut else .ok)]
          cpc := s.cpc + 1 }))

/-- R107: in every interleaving a blocking command of n bytes makes exactly n DataWrites if it sends and n DataReads if
it receives, timeouts or not: each step of any agent keeps the count in line with the progress, and the command ends
with the full count. -/
def Obligations.BlockingAccessCount : Prop :=
  ∀ (w r : Nat) (k : Kind) (m : Move) (s t : State),
    Coherent s → s.fault = 0x00#8 → s.blk.kind = some k → enabled s m = true → runMove m s = .next t →
    t.fault = 0x00#8 →
    (dataWrites s.trace).length = w + writesSoFar k s.blk → (dataReads s.trace).length = r + readsSoFar k s.blk →
    (t.blk.kind = some k ∧ (dataWrites t.trace).length = w + writesSoFar k t.blk ∧
        (dataReads t.trace).length = r + readsSoFar k t.blk) ∨
      (t.blk.kind = none ∧ (dataWrites t.trace).length = w + (if k.sends then s.blk.n else 0) ∧
        (dataReads t.trace).length = r + (if k.receives then s.blk.n else 0))

/-- R108, R109: with TC = 0 a Wait that no completion ends makes exactly B.t spins, counting down from B.t to 1, and
then times the byte out; it makes no other change. -/
def Obligations.WaitEndsWithinBudget : Prop :=
  ∀ s : State, s.tc = false → s.blk.phase = .wait →
    waitSteps (s.blk.t + 1) s = { s with
      blk := { s.blk with t := 0, late := (s.blk.late + 1) % 2 ^ s.par.sizeBits, phase := .finish }
      trace := s.trace ++ (List.range s.blk.t).map (fun j => Event.spin s.blk.i (s.blk.t - j)) ++
        [.timedOut s.blk.i] }

/-- The frame of TX, RX, TXRX and of their micro-steps: CTRL, S.mode, the cursors, S.remaining, S.hook, the ghost
regions, the argument registers and S.rx_latch are never written (R110), STATUS changes in TC only, not at all in an
issue; memory is unchanged but for the slot a Finish stores to, and an issue or Start stores nothing. -/
def Obligations.BlockingFrame : Prop :=
  (∀ (k : Kind) (s t : State), exec k.instr s = .next t →
    t.ctrl = s.ctrl ∧ t.status = s.status ∧ t.arg = s.arg ∧ t.xfer = s.xfer ∧ t.ghost = s.ghost ∧ t.hook = s.hook ∧
      t.txShift = s.txShift ∧ t.rxLatch = s.rxLatch ∧ t.xferBusy = s.xferBusy ∧ SameMemory s t) ∧
  (∀ (k : Kind) (s t : State), s.blk.kind = some k → foregroundStep s = .next t →
    t.ctrl = s.ctrl ∧ t.arg = s.arg ∧ t.xfer = s.xfer ∧ t.ghost = s.ghost ∧ t.hook = s.hook ∧
      t.rxLatch = s.rxLatch ∧ (∀ j, j ≠ 7 → bit t.status j = bit s.status j) ∧
      (Memory.wf s.mem = true → SameMemoryBut (indexed s.blk.rxb s.blk.i) s t) ∧
      ((k = .tx ∨ s.blk.phase ≠ .finish) → SameMemory s t))

/-! ## Async transfers -/

/-- R122: an arming command refused by the admission rule changes nothing but RESULT, the trace and S.cpc. -/
def Obligations.BusyArmingIsIgnored : Prop :=
  ∀ (i : Instr) (s : State), i ∈ [.txAsync, .rxAsync, .txrxAsync] → s.xfer.remaining ≠ 0 →
    exec i s = .next { s with
      result := 0x02#8, cpc := s.cpc + 1, trace := s.trace ++ [.done i .busyIgnored] }

/-- R123: with nothing remaining, TX_ASYNC and TXRX_ASYNC of size 0 are no-ops with RESULT Ok; RX_ASYNC of size 0 arms
mode Rx with remaining 0; the admission test comes first. -/
def Obligations.ZeroLengthArming : Prop :=
  (∀ (i : Instr) (s : State), i ∈ [.txAsync, .txrxAsync] → s.arg.size = 0 → s.xfer.remaining = 0 →
    exec i s = .next { s with result := 0x00#8, cpc := s.cpc + 1, trace := s.trace ++ [.done i .ok] }) ∧
  (∀ s : State, s.arg.size = 0 → s.xfer.remaining = 0 →
    ∃ t, exec .rxAsync s = .next t ∧ t.xfer.mode = .rx ∧ t.xfer.remaining = 0 ∧ t.result = 0x00#8) ∧
  (∀ (i : Instr) (s : State), i ∈ [.txAsync, .rxAsync, .txrxAsync] → s.arg.size = 0 → s.xfer.remaining ≠ 0 →
    ∃ t, exec i s = .next t ∧ t.result = 0x02#8)

/-- R124: TX_ASYNC is ignored while bytes remain and is a no-op for size 0; admitted with a size above 0, it sends the
first byte, sets mode Tx, the cursor past it and the remaining count; where the region does not fit or the byte does not
exist it raises BufferRange, and a write during an exchange is dropped or faults. -/
def Obligations.TxAsyncArms : Prop :=
  decode 0x08#8 = .ok .txAsync ∧
  (∀ s : State, s.xfer.remaining ≠ 0 → exec .txAsync s = .next { s with
    result := 0x02#8, cpc := s.cpc + 1, trace := s.trace ++ [.done .txAsync .busyIgnored] }) ∧
  (∀ s : State, s.xfer.remaining = 0 → s.arg.size = 0 → exec .txAsync s = .next { s with
    result := 0x00#8, cpc := s.cpc + 1, trace := s.trace ++ [.done .txAsync .ok] }) ∧
  ∀ (s : State) (b : Byte), s.xfer.remaining = 0 → 0 < s.arg.size → b = Memory.read s.mem s.arg.tx →
    ((2 ^ s.par.addrBits < s.arg.tx + s.arg.size ∨ existsAt s.par s.arg.tx = false) →
      exec .txAsync s = .next (raiseFault ⟨.bufferRange, s.arg.tx⟩ s)) ∧
    (s.arg.tx + s.arg.size ≤ 2 ^ s.par.addrBits → existsAt s.par s.arg.tx = true →
      (∀ r : State,
        (s.xferBusy = false ∧ r = acceptedWrite b s ∨
          s.xferBusy = true ∧ s.par.writeWhileBusy = .drop ∧
            r = { s with trace := s.trace ++ [.dataWr b false] }) →
        exec .txAsync s = .next { r with
          ghost := { s.ghost with txLo := s.arg.tx, txHi := s.arg.tx + s.arg.size }
          xfer := { s.xfer with
            mode := .tx, txCur := (s.arg.tx + 1) % 2 ^ s.par.addrBits, remaining := s.arg.size - 1 }
          result := 0x00#8
          cpc := s.cpc + 1
          trace := r.trace ++ [.done .txAsync .ok] }) ∧
      (s.xferBusy = true → s.par.writeWhileBusy = .fault →
        exec .txAsync s = .next (raiseFault ⟨.writeWhileBusy, b.toNat⟩ s)))

/-- R127: RX_ASYNC is ignored while bytes remain; admitted, it sets mode Rx, the cursor at the buffer and the remaining
count, with no access to DATA or memory; where a region of size above 0 does not fit it raises BufferRange. -/
def Obligations.RxAsyncArms : Prop :=
  decode 0x09#8 = .ok .rxAsync ∧
  (∀ s : State, s.xfer.remaining ≠ 0 → exec .rxAsync s = .next { s with
    result := 0x02#8, cpc := s.cpc + 1, trace := s.trace ++ [.done .rxAsync .busyIgnored] }) ∧
  ∀ s : State, s.xfer.remaining = 0 →
    (0 < s.arg.size → 2 ^ s.par.addrBits < s.arg.rx + s.arg.size →
      exec .rxAsync s = .next (raiseFault ⟨.bufferRange, s.arg.rx⟩ s)) ∧
    ((s.arg.size = 0 ∨ s.arg.rx + s.arg.size ≤ 2 ^ s.par.addrBits) →
      exec .rxAsync s = .next { s with
        ghost := { s.ghost with rxLo := s.arg.rx, rxHi := s.arg.rx + s.arg.size }
        xfer := { s.xfer with mode := .rx, rxCur := s.arg.rx, remaining := s.arg.size }
        result := 0x00#8
        cpc := s.cpc + 1
        trace := s.trace ++ [.done .rxAsync .ok] })

/-- R130: TXRX_ASYNC is ignored while bytes remain and is a no-op for size 0; admitted with a size above 0, it sends
the first byte and sets mode TxRx, both cursors and the remaining count; a region that does not fit or a byte that does
not exist raises BufferRange with the base of the region, or with the byte's address (R217), and with one of the two
bases where neither region fits (log 12); a write during an exchange is dropped or faults. -/
def Obligations.TxrxAsyncArms : Prop :=
  decode 0x0A#8 = .ok .txrxAsync ∧
  (∀ s : State, s.xfer.remaining ≠ 0 → exec .txrxAsync s = .next { s with
    result := 0x02#8, cpc := s.cpc + 1, trace := s.trace ++ [.done .txrxAsync .busyIgnored] }) ∧
  (∀ s : State, s.xfer.remaining = 0 → s.arg.size = 0 → exec .txrxAsync s = .next { s with
    result := 0x00#8, cpc := s.cpc + 1, trace := s.trace ++ [.done .txrxAsync .ok] }) ∧
  ∀ (s : State) (b : Byte), s.xfer.remaining = 0 → 0 < s.arg.size → b = Memory.read s.mem s.arg.tx →
    (2 ^ s.par.addrBits < s.arg.tx + s.arg.size → 2 ^ s.par.addrBits < s.arg.rx + s.arg.size →
      ∃ a, (a = s.arg.tx ∨ a = s.arg.rx) ∧ exec .txrxAsync s = .next (raiseFault ⟨.bufferRange, a⟩ s)) ∧
    (2 ^ s.par.addrBits < s.arg.tx + s.arg.size → s.arg.rx + s.arg.size ≤ 2 ^ s.par.addrBits →
      exec .txrxAsync s = .next (raiseFault ⟨.bufferRange, s.arg.tx⟩ s)) ∧
    (s.arg.tx + s.arg.size ≤ 2 ^ s.par.addrBits → 2 ^ s.par.addrBits < s.arg.rx + s.arg.size →
      exec .txrxAsync s = .next (raiseFault ⟨.bufferRange, s.arg.rx⟩ s)) ∧
    (s.arg.tx + s.arg.size ≤ 2 ^ s.par.addrBits → s.arg.rx + s.arg.size ≤ 2 ^ s.par.addrBits →
      existsAt s.par s.arg.tx = false →
      exec .txrxAsync s = .next (raiseFault ⟨.bufferRange, s.arg.tx⟩ s)) ∧
    (s.arg.tx + s.arg.size ≤ 2 ^ s.par.addrBits → s.arg.rx + s.arg.size ≤ 2 ^ s.par.addrBits →
      existsAt s.par s.arg.tx = true →
      (∀ r : State,
        (s.xferBusy = false ∧ r = acceptedWrite b s ∨
          s.xferBusy = true ∧ s.par.writeWhileBusy = .drop ∧
            r = { s with trace := s.trace ++ [.dataWr b false] }) →
        exec .txrxAsync s = .next { r with
          ghost := {
            txLo := s.arg.tx, txHi := s.arg.tx + s.arg.size,
            rxLo := s.arg.rx, rxHi := s.arg.rx + s.arg.size }
          xfer := {
            mode := .txrx, txCur := (s.arg.tx + 1) % 2 ^ s.par.addrBits, rxCur := s.arg.rx,
            remaining := s.arg.size - 1 }
          result := 0x00#8
          cpc := s.cpc + 1
          trace := r.trace ++ [.done .txrxAsync .ok] }) ∧
      (s.xferBusy = true → s.par.writeWhileBusy = .fault →
        exec .txrxAsync s = .next (raiseFault ⟨.writeWhileBusy, b.toNat⟩ s)))

/-- The frame of the three arming commands: caller memory, CTRL, the argument registers, TO_COUNT, S.hook, S.rx_latch
and the blocking engine are unchanged; STATUS changes in TC only; TX_ASYNC leaves the receive cursor and region, and
RX_ASYNC leaves STATUS, the transmit cursor and region, S.tx_shift and S.xfer_busy (R128). -/
def Obligations.AsyncArmingFrame : Prop :=
  ∀ (i : Instr) (s t : State), i ∈ [.txAsync, .rxAsync, .txrxAsync] → exec i s = .next t →
    (SameMemory s t ∧ t.ctrl = s.ctrl ∧ t.arg = s.arg ∧ t.toCount = s.toCount ∧ t.hook = s.hook ∧
      t.rxLatch = s.rxLatch ∧ t.blk = s.blk ∧ ∀ k, k ≠ 7 → bit t.status k = bit s.status k) ∧
    (i = .txAsync → t.xfer.rxCur = s.xfer.rxCur ∧ t.ghost.rxLo = s.ghost.rxLo ∧ t.ghost.rxHi = s.ghost.rxHi) ∧
    (i = .rxAsync → t.xfer.txCur = s.xfer.txCur ∧ t.ghost.txLo = s.ghost.txLo ∧ t.ghost.txHi = s.ghost.txHi ∧
      t.status = s.status ∧ t.txShift = s.txShift ∧ t.xferBusy = s.xferBusy)

/-- R138: the advance in mode Tx writes the next byte and moves the cursor, or, with nothing remaining, returns to
Idle with no access. -/
def Obligations.AdvanceInModeTx : Prop :=
  ∀ (s : State) (b : Byte), s.xfer.mode = .tx → b = Memory.read s.mem s.xfer.txCur →
    (s.xfer.remaining = 0 → advance s = .ok { s with xfer := { s.xfer with mode := .idle } }) ∧
    (0 < s.xfer.remaining →
      ((existsAt s.par s.xfer.txCur = false ∨ s.xfer.txCur < s.ghost.txLo ∨ s.ghost.txHi ≤ s.xfer.txCur) →
        advance s = .error ⟨.bufferRange, s.xfer.txCur⟩) ∧
      (existsAt s.par s.xfer.txCur = true → s.ghost.txLo ≤ s.xfer.txCur → s.xfer.txCur < s.ghost.txHi →
        (∀ r : State,
          (s.xferBusy = false ∧ r = acceptedWrite b s ∨
            s.xferBusy = true ∧ s.par.writeWhileBusy = .drop ∧
              r = { s with trace := s.trace ++ [.dataWr b false] }) →
          advance s = .ok { r with xfer := { s.xfer with
            txCur := (s.xfer.txCur + 1) % 2 ^ s.par.addrBits, remaining := s.xfer.remaining - 1 } }) ∧
        (s.xferBusy = true → s.par.writeWhileBusy = .fault →
          advance s = .error ⟨.writeWhileBusy, b.toNat⟩)))

/-- R139: the advance in mode Rx stores the byte of a DataRead and moves the cursor, returning to Idle when nothing
remains. -/
def Obligations.AdvanceInModeRx : Prop :=
  ∀ s : State, s.xfer.mode = .rx →
    (s.xfer.remaining = 0 → advance s = .ok { s with xfer := { s.xfer with mode := .idle } }) ∧
    (0 < s.xfer.remaining →
      ((existsAt s.par s.xfer.rxCur = false ∨ s.xfer.rxCur < s.ghost.rxLo ∨ s.ghost.rxHi ≤ s.xfer.rxCur) →
        advance s = .error ⟨.bufferRange, s.xfer.rxCur⟩) ∧
      (existsAt s.par s.xfer.rxCur = true → s.ghost.rxLo ≤ s.xfer.rxCur → s.xfer.rxCur < s.ghost.rxHi →
        advance s = .ok { readDone s with
          mem := Memory.write s.mem s.xfer.rxCur s.rxLatch
          xfer := { s.xfer with
            mode := if s.xfer.remaining = 1 then .idle else .rx
            rxCur := (s.xfer.rxCur + 1) % 2 ^ s.par.addrBits
            remaining := s.xfer.remaining - 1 } }))

/-- R140, R141: the advance in mode TxRx writes the next byte and then stores S.rx_latch, moving both cursors; with
nothing remaining it makes the one final read into the current slot and returns to Idle. An access outside P_MEM or
outside its region raises BufferRange, the write's first, and a write during an exchange is dropped or faults. -/
def Obligations.AdvanceInModeTxrx : Prop :=
  ∀ (s : State) (b : Byte), s.xfer.mode = .txrx → b = Memory.read s.mem s.xfer.txCur →
    (s.xfer.remaining = 0 →
      ((existsAt s.par s.xfer.rxCur = false ∨ s.xfer.rxCur < s.ghost.rxLo ∨ s.ghost.rxHi ≤ s.xfer.rxCur) →
        advance s = .error ⟨.bufferRange, s.xfer.rxCur⟩) ∧
      (existsAt s.par s.xfer.rxCur = true → s.ghost.rxLo ≤ s.xfer.rxCur → s.xfer.rxCur < s.ghost.rxHi →
        advance s = .ok { readDone s with
          mem := Memory.write s.mem s.xfer.rxCur s.rxLatch, xfer := { s.xfer with mode := .idle } })) ∧
    (0 < s.xfer.remaining →
      ((existsAt s.par s.xfer.txCur = false ∨ s.xfer.txCur < s.ghost.txLo ∨ s.ghost.txHi ≤ s.xfer.txCur) →
        advance s = .error ⟨.bufferRange, s.xfer.txCur⟩) ∧
      (existsAt s.par s.xfer.txCur = true → s.ghost.txLo ≤ s.xfer.txCur → s.xfer.txCur < s.ghost.txHi →
        (∀ r : State,
          (s.xferBusy = false ∧ r = acceptedWrite b s ∨
            s.xferBusy = true ∧ s.par.writeWhileBusy = .drop ∧
              r = { s with trace := s.trace ++ [.dataWr b false] }) →
          ((existsAt s.par s.xfer.rxCur = false ∨ s.xfer.rxCur < s.ghost.rxLo ∨ s.ghost.rxHi ≤ s.xfer.rxCur) →
            advance s = .error ⟨.bufferRange, s.xfer.rxCur⟩) ∧
          (existsAt s.par s.xfer.rxCur = true → s.ghost.rxLo ≤ s.xfer.rxCur → s.xfer.rxCur < s.ghost.rxHi →
            advance s = .ok { readDone r with
              mem := Memory.write s.mem s.xfer.rxCur s.rxLatch
              xfer := {
                mode := .txrx, txCur := (s.xfer.txCur + 1) % 2 ^ s.par.addrBits,
                rxCur := (s.xfer.rxCur + 1) % 2 ^ s.par.addrBits, remaining := s.xfer.remaining - 1 } })) ∧
        (s.xferBusy = true → s.par.writeWhileBusy = .fault →
          advance s = .error ⟨.writeWhileBusy, b.toNat⟩)))

/-- R142: the state machine over (S.mode, S.remaining): what an advance that raises no fault makes of the pair, and how
many accesses to DATA it makes. -/
def Obligations.AdvanceStateMachine : Prop :=
  ∀ s t : State, advance s = .ok t →
    ∃ es : List Event, t.trace = s.trace ++ es ∧
      (s.xfer.mode = .idle → t = s) ∧
      (s.xfer.mode = .tx → 0 < s.xfer.remaining →
        t.xfer.mode = .tx ∧ t.xfer.remaining = s.xfer.remaining - 1 ∧
          (dataWrites es).length = 1 ∧ dataReads es = []) ∧
      (s.xfer.mode = .rx → 1 < s.xfer.remaining →
        t.xfer.mode = .rx ∧ t.xfer.remaining = s.xfer.remaining - 1 ∧
          dataWrites es = [] ∧ (dataReads es).length = 1) ∧
      (s.xfer.mode = .rx → s.xfer.remaining = 1 →
        t.xfer.mode = .idle ∧ t.xfer.remaining = 0 ∧ dataWrites es = [] ∧ (dataReads es).length = 1) ∧
      (s.xfer.mode = .txrx → 0 < s.xfer.remaining →
        t.xfer.mode = .txrx ∧ t.xfer.remaining = s.xfer.remaining - 1 ∧
          (dataWrites es).length = 1 ∧ (dataReads es).length = 1) ∧
      (s.xfer.mode = .txrx → s.xfer.remaining = 0 →
        t.xfer.mode = .idle ∧ t.xfer.remaining = 0 ∧ dataWrites es = [] ∧ (dataReads es).length = 1) ∧
      ((s.xfer.mode = .tx ∨ s.xfer.mode = .rx) → s.xfer.remaining = 0 →
        t.xfer.mode = .idle ∧ t.xfer.remaining = 0 ∧ dataWrites es = [] ∧ dataReads es = [])

/-- The transmit law, R143: TX_ASYNC of n bytes and n rounds write exactly the n buffer bytes in order and end in
(Idle, 0), with nothing remaining after n − 1 rounds already; one more round writes nothing. -/
def Obligations.AsyncTransmitLaw : Prop :=
  ∀ (s : State) (ds : List Byte),
    s.xfer.mode = .idle → s.xfer.remaining = 0 → 0 < s.arg.size → ds.length = s.arg.size →
    s.arg.tx + s.arg.size ≤ 2 ^ s.par.addrBits → BufferExists s.par s.arg.tx s.arg.size →
    (s.xferBusy = false ∨ s.par.writeWhileBusy = .drop) → HookAllowed s →
    ∃ t u v, exec .txAsync s = .next t ∧
      asyncRounds ds.dropLast t = .ok u ∧ u.xfer.remaining = 0 ∧
      asyncRounds ds t = .ok v ∧ v.xfer.mode = .idle ∧ v.xfer.remaining = 0 ∧
      dataWrites v.trace =
        dataWrites s.trace ++ (List.range s.arg.size).map (fun k => Memory.read s.mem (s.arg.tx + k)) ∧
      v.mem = s.mem ∧
      ∀ d, ∃ x, asyncRound d v = .ok x ∧ dataWrites x.trace = dataWrites v.trace ∧ x.xfer.remaining = 0

/-- The receive law, R144: RX_ASYNC of n bytes and n rounds make exactly n DataReads, store the received bytes in order
at b, b + 1, …, change no other byte, and end in (Idle, 0) with the cursor at b + n (modulo its width). -/
def Obligations.AsyncReceiveLaw : Prop :=
  ∀ (s : State) (ds : List Byte),
    s.xfer.mode = .idle → s.xfer.remaining = 0 → 0 < s.arg.size → ds.length = s.arg.size →
    s.arg.rx + s.arg.size ≤ 2 ^ s.par.addrBits → BufferExists s.par s.arg.rx s.arg.size →
    Memory.wf s.mem = true → HookAllowed s →
    ∃ t v, exec .rxAsync s = .next t ∧ asyncRounds ds t = .ok v ∧
      v.xfer.mode = .idle ∧ v.xfer.remaining = 0 ∧
      v.xfer.rxCur = (s.arg.rx + s.arg.size) % 2 ^ s.par.addrBits ∧
      dataReads v.trace = dataReads s.trace ++ ds ∧ dataWrites v.trace = dataWrites s.trace ∧
      (∀ k < s.arg.size, ds[k]? = some (Memory.read v.mem (s.arg.rx + k))) ∧
      ∀ a, (a < s.arg.rx ∨ s.arg.rx + s.arg.size ≤ a) → Memory.read v.mem a = Memory.read s.mem a

/-- The transmit-receive law, R145: TXRX_ASYNC of n bytes and n rounds make n DataWrites and n DataReads, slot b + k
receives the byte of round k, no byte outside the receive buffer changes, and it ends in (Idle, 0) with the transmit
cursor at a + n (modulo its width) and the receive cursor at b + n − 1. -/
def Obligations.AsyncTransmitReceiveLaw : Prop :=
  ∀ (s : State) (ds : List Byte),
    s.xfer.mode = .idle → s.xfer.remaining = 0 → 0 < s.arg.size → ds.length = s.arg.size →
    s.arg.tx + s.arg.size ≤ 2 ^ s.par.addrBits → s.arg.rx + s.arg.size ≤ 2 ^ s.par.addrBits →
    BufferExists s.par s.arg.tx s.arg.size → BufferExists s.par s.arg.rx s.arg.size →
    (s.xferBusy = false ∨ s.par.writeWhileBusy = .drop) → Memory.wf s.mem = true → HookAllowed s →
    ∃ t v, exec .txrxAsync s = .next t ∧ asyncRounds ds t = .ok v ∧
      v.xfer.mode = .idle ∧ v.xfer.remaining = 0 ∧
      v.xfer.txCur = (s.arg.tx + s.arg.size) % 2 ^ s.par.addrBits ∧
      v.xfer.rxCur = s.arg.rx + s.arg.size - 1 ∧
      (dataWrites v.trace).length = (dataWrites s.trace).length + s.arg.size ∧
      dataReads v.trace = dataReads s.trace ++ ds ∧
      (∀ k < s.arg.size, ds[k]? = some (Memory.read v.mem (s.arg.rx + k))) ∧
      ∀ a, (a < s.arg.rx ∨ s.arg.rx + s.arg.size ≤ a) → Memory.read v.mem a = Memory.read s.mem a

/-- While bytes remain, no step but the interrupt's writes S.mode, the cursors or S.remaining (R76, R44). -/
def Obligations.OnlyTheAdvanceWritesTransfer : Prop :=
  ∀ s t : State, 0 < s.xfer.remaining → step s = .next t → nextMove s ≠ some .interrupt → t.xfer = s.xfer

/-! ## The interrupt -/

/-- R202, R201: the Interrupt agent has a step exactly while TC = 1, IE = 1 and S.fault = 0, whatever CTRL.EN is. -/
def Obligations.InterruptEnabledWhilePending : Prop :=
  ∀ s : State, enabled s .interrupt = true ↔ (bit s.status 7 = true ∧ bit s.ctrl 7 = true ∧ s.fault = 0x00#8)

/-- An interrupt step that raises no fault begins with IrqTaken of the mode, ends with TC = 0 and emits exactly one
Notify if a hook is set and none otherwise (R203, R208). -/
def Obligations.InterruptAcknowledgesAndNotifies : Prop :=
  ∀ s t : State, s.fault = 0x00#8 → interruptStep s = .next t → t.fault = 0x00#8 →
    t.tc = false ∧
      ∃ es : List Event, t.trace = s.trace ++ .irqTaken s.xfer.mode :: es ∧
        notifications es = (if s.hook = 0 then [] else [s.hook])

/-- R206: after an advance that raises no fault the hook is notified; with no hook set there is no event, or HookUnset
and the whole step undone if P_UNSET_HOOK_FAULTS. -/
def Obligations.NotifyFollowsTheAdvance : Prop :=
  ∀ s t : State, advance (interruptEntry s) = .ok t →
    (s.hook ≠ 0 → interruptStep s = .next { t with trace := t.trace ++ [.notify s.hook] }) ∧
    (s.hook = 0 → s.par.unsetHookFaults = true → interruptStep s = .next (raiseFault ⟨.hookUnset, 0⟩ s)) ∧
    (s.hook = 0 → s.par.unsetHookFaults = false → interruptStep s = .next t)

/-- R137: the advance in mode Idle changes nothing and makes no access, so an interrupt while Idle clears TC, emits its
events and changes nothing else. -/
def Obligations.InterruptWhileIdle : Prop :=
  ∀ s : State, s.xfer.mode = .idle →
    advance s = .ok s ∧
    (HookAllowed s → interruptStep s = .next { s with
      status := tcCleared s.status
      trace := s.trace ++ .irqTaken .idle :: (if s.hook = 0 then [] else [.notify s.hook]) })

/-- The frame of the interrupt step: the foreground's state (S.cpc, B.*, the argument registers), CTRL, RESULT,
TO_COUNT, S.hook and S.rx_latch are unchanged, STATUS changes in TC only, and memory changes at most at S.rx_cur, and
only in a receiving mode (R204). -/
def Obligations.InterruptFrame : Prop :=
  ∀ s t : State, interruptStep s = .next t →
    t.cpc = s.cpc ∧ t.blk = s.blk ∧ t.arg = s.arg ∧ t.ctrl = s.ctrl ∧ t.result = s.result ∧
      t.toCount = s.toCount ∧ t.hook = s.hook ∧ t.rxLatch = s.rxLatch ∧ t.ghost = s.ghost ∧
      (∀ k, k ≠ 7 → bit t.status k = bit s.status k) ∧
      (Memory.wf s.mem = true → SameMemoryBut s.xfer.rxCur s t) ∧
      ((s.xfer.mode = .idle ∨ s.xfer.mode = .tx) → SameMemory s t)

/-! ## The serial engine -/

/-- R171, R172, R173: an accepted DataWrite loads S.tx_shift, clears TC, and starts an exchange exactly in controller
role with EN = 1; during an exchange it is dropped or raises WriteWhileBusy. A DataRead clears TC and returns
S.rx_latch, which it does not change, so a second one returns the same byte. -/
def Obligations.DataRegisterPrimitives : Prop :=
  ∀ (b : Byte) (s : State),
    (s.xferBusy = false → dataWrite b s = .ok (acceptedWrite b s)) ∧
    (s.xferBusy = true → s.par.writeWhileBusy = .drop →
      dataWrite b s = .ok { s with trace := s.trace ++ [.dataWr b false] }) ∧
    (s.xferBusy = true → s.par.writeWhileBusy = .fault →
      dataWrite b s = .error ⟨.writeWhileBusy, b.toNat⟩) ∧
    dataRead s = readDone s ∧ (dataRead s).tc = false ∧
    (dataRead (dataRead s)).trace = s.trace ++ [.dataRd s.rxLatch, .dataRd s.rxLatch]

/-- R174, R175: a completion is enabled exactly during an exchange, for any byte: it stores the byte, sets TC and ends
the exchange. The remote party's start is enabled exactly in peripheral role with EN = 1 and no exchange in progress:
it starts an exchange of S.tx_shift. Neither changes anything else, and neither is enabled once a fault is raised. -/
def Obligations.BusAgentSteps : Prop :=
  ∀ (b : Byte) (s : State),
    (enabled s (.exchangeDone b) = true ↔ s.fault = 0x00#8 ∧ s.xferBusy = true) ∧
    (∃ t, runMove (.exchangeDone b) s = .next t ∧ t.tc = true ∧ (∀ k, k ≠ 7 → bit t.status k = bit s.status k) ∧
      t = { s with
        rxLatch := b, status := t.status, xferBusy := false, trace := s.trace ++ [.xferDone s.txShift b] }) ∧
    (enabled s .peerStart = true ↔
      s.fault = 0x00#8 ∧ bit s.ctrl 4 = false ∧ bit s.ctrl 6 = true ∧ s.xferBusy = false) ∧
    runMove .peerStart s = .next { s with xferBusy := true, trace := s.trace ++ [.xferStart s.txShift] }

/-- An exchange starts only with EN = 1: in controller role by an accepted DataWrite of the step, in peripheral role by
the remote party's start (R173, R174, R182). -/
def Obligations.ExchangeStartsOnlyBy : Prop :=
  ∀ (m : Move) (s t : State), runMove m s = .next t → s.xferBusy = false → t.xferBusy = true →
    enabled s m = true →
    s.en = true ∧
      (s.role = true ∧ (∃ b es, t.trace = s.trace ++ es ∧ Event.dataWr b true ∈ es) ∨
        s.role = false ∧ m = .peerStart)

/-- TC is set only by the completion of an exchange and is cleared only by the foreground or the interrupt (R53). -/
def Obligations.FlagSetOnlyByCompletion : Prop :=
  ∀ s t : State, step s = .next t →
    (s.tc = false → t.tc = true → ∃ b, nextMove s = some (.exchangeDone b)) ∧
    (s.tc = true → t.tc = false → nextMove s = some .foreground ∨ nextMove s = some .interrupt)

/-- R177: with CTRL.DORD (bit 5) = 0 the bits of the outgoing byte leave in the order 7 to 0 and the first bit received
becomes bit 7; with CTRL.DORD = 1 the order is 0 to 7 for both; so a byte received as it was sent is the same byte. The
wire functions are the model's own, and no step reads them (log 19). -/
def Obligations.WireOrderFollowsDord : Prop :=
  ∀ s : State,
    s.dord = bit s.ctrl 5 ∧
    (wireOut s).length = 8 ∧
    (∀ k < 8, (wireOut s)[k]? = some (bit s.txShift (if bit s.ctrl 5 = true then k else 7 - k))) ∧
    (∀ (w : List Bool) (k : Nat), w.length = 8 → k < 8 →
      w[k]? = some (bit (wireIn s w) (if bit s.ctrl 5 = true then k else 7 - k))) ∧
    wireIn s (wireOut s) = s.txShift

/-! ## Host operations -/

/-- R162: a host write stores an argument register truncated to its width, runs a command at register 3, and raises
IllegalRegisterAccess everywhere else. -/
def Obligations.HostWriteRegisters : Prop :=
  ∀ (s : State) (v : Nat),
    hostWrite 4 v s = .next { s with arg := { s.arg with tx := v % 2 ^ s.par.addrBits }, cpc := s.cpc + 1 } ∧
    hostWrite 5 v s = .next { s with arg := { s.arg with rx := v % 2 ^ s.par.addrBits }, cpc := s.cpc + 1 } ∧
    hostWrite 6 v s = .next { s with arg := { s.arg with size := v % 2 ^ s.par.sizeBits }, cpc := s.cpc + 1 } ∧
    hostWrite 7 v s = .next { s with arg := { s.arg with timeout := v % 2 ^ s.par.timeoutBits }, cpc := s.cpc + 1 } ∧
    hostWrite 8 v s = .next { s with arg := { s.arg with cfg := BitVec.ofNat 8 v }, cpc := s.cpc + 1 } ∧
    hostWrite 9 v s = .next { s with arg := { s.arg with hook := v % 2 ^ s.par.hookBits }, cpc := s.cpc + 1 } ∧
    (∀ i, decode (BitVec.ofNat 8 v) = .ok i → hostWrite 3 v s = exec i s) ∧
    (∀ e, decode (BitVec.ofNat 8 v) = .error e →
      hostWrite 3 v s = .next (raiseFault ⟨.illegalCommand, v % 256⟩ s)) ∧
    (∀ r, r < 3 ∨ 9 < r → hostWrite r v s = .next (raiseFault ⟨.illegalRegisterAccess, r⟩ s))

/-- R163: a host read emits the register's value, changes only the trace and S.cpc, and raises IllegalRegisterAccess
for DATA, CMD and every number from 17. -/
def Obligations.HostReadRegisters : Prop :=
  ∀ s : State,
    (∀ r, (r = 2 ∨ r = 3 ∨ 17 ≤ r) → hostRead r s = .next (raiseFault ⟨.illegalRegisterAccess, r⟩ s)) ∧
    (∀ r v, (r, v) ∈
        [(0, s.ctrl.toNat), (1, (s.status &&& 0x81#8).toNat), (4, s.arg.tx), (5, s.arg.rx), (6, s.arg.size),
          (7, s.arg.timeout), (8, s.arg.cfg.toNat), (9, s.arg.hook), (10, (s.result &&& 0x03#8).toNat),
          (11, s.seqStatus.toNat), (12, s.toCount), (13, s.xfer.remaining), (14, s.xfer.txCur), (15, s.xfer.rxCur),
          (16, s.fault.toNat)] →
      hostRead r s = .next { s with cpc := s.cpc + 1, trace := s.trace ++ [.hostRd r v] })

/-- R32: the fields of SEQ_STATUS, its reset value, and that a host read of it changes only the trace and S.cpc and a
host write of it is illegal. -/
def Obligations.SeqStatusFields : Prop :=
  State.reset.seqStatus = 0x00#8 ∧
  ∀ s : State,
    hostRead 11 s = .next { s with cpc := s.cpc + 1, trace := s.trace ++ [.hostRd 11 s.seqStatus.toNat] } ∧
    (∀ v, hostWrite 11 v s = .next (raiseFault ⟨.illegalRegisterAccess, 11⟩ s)) ∧
    (bit s.seqStatus 0 = true ↔ s.xfer.remaining ≠ 0) ∧ (bit s.seqStatus 1 = true ↔ s.xfer.mode ≠ .idle) ∧
    (s.xfer.mode = .idle → bit s.seqStatus 3 = false ∧ bit s.seqStatus 2 = false) ∧
    (s.xfer.mode = .tx → bit s.seqStatus 3 = false ∧ bit s.seqStatus 2 = true) ∧
    (s.xfer.mode = .rx → bit s.seqStatus 3 = true ∧ bit s.seqStatus 2 = false) ∧
    (s.xfer.mode = .txrx → bit s.seqStatus 3 = true ∧ bit s.seqStatus 2 = true) ∧
    bit s.seqStatus 4 = s.xferBusy ∧ ∀ k, 5 ≤ k → bit s.seqStatus k = false

/-- R68: host accesses to caller memory. An access to an address of an active region raises BufferRace (a read of the
transmit region is allowed); another access reads or writes its one byte; one to an address outside P_MEM, in no active
region, raises BufferRange (R62, R63); for an address of more than P_ADDR_BITS bits that is the model's choice (log 11).
What an address outside P_MEM but in an active region raises is not stated (log 10). -/
def Obligations.HostMemoryAccess : Prop :=
  ∀ (s : State) (a : Nat) (v : Byte), Memory.wf s.mem = true →
    (existsAt s.par a = true → WriteRace s a → hostMemWrite a v s = .next (raiseFault ⟨.bufferRace, a⟩ s)) ∧
    (existsAt s.par a = true → ReadRace s a → hostMemRead a s = .next (raiseFault ⟨.bufferRace, a⟩ s)) ∧
    (existsAt s.par a = false → ¬ WriteRace s a → hostMemWrite a v s = .next (raiseFault ⟨.bufferRange, a⟩ s)) ∧
    (existsAt s.par a = false → ¬ ReadRace s a → hostMemRead a s = .next (raiseFault ⟨.bufferRange, a⟩ s)) ∧
    (existsAt s.par a = true → ¬ WriteRace s a →
      ∃ t, hostMemWrite a v s = .next t ∧ t = { s with mem := t.mem, cpc := s.cpc + 1 } ∧
        Memory.read t.mem a = v ∧ SameMemoryBut a s t) ∧
    (existsAt s.par a = true → ¬ ReadRace s a →
      hostMemRead a s = .next { s with
        cpc := s.cpc + 1, trace := s.trace ++ [.hostRdMem a (Memory.read s.mem a)] })
end

