-- ==== Sys2Proof/Laws/Memory.lean ====
section
/-! SUPPORT. Caller memory: what a write leaves to be read, and that it keeps the canonical form (20_memory.md R62,
R63). -/

namespace Sys2Proof.Machine

/-- Every cell of a list lies above `a`. -/
def Memory.above (a : Nat) (m : List Host.Cell) : Bool := m.all (fun c => decide (a < c.1))

theorem Memory.wf_cons (a : Nat) (v : Byte) (m : List Host.Cell) :
    Memory.wf ((a, v) :: m) = true ↔ v ≠ Memory.unlisted ∧ Memory.above a m = true ∧ Memory.wf m = true := by
  simp [Memory.wf, Memory.above, and_assoc]

theorem Memory.above_mono {a b : Nat} {m : List Host.Cell} (h : a ≤ b) (hb : Memory.above b m = true) :
    Memory.above a m = true := by
  simp only [Memory.above, List.all_eq_true, decide_eq_true_eq] at *
  intro c hc
  have := hb c hc
  omega

/-- An address below every cell is unlisted. -/
theorem Memory.read_of_above {a : Nat} {m : List Host.Cell} (h : Memory.above a m = true) :
    Memory.read m a = Memory.unlisted := by
  induction m with
  | nil => rfl
  | cons c m ih =>
    obtain ⟨b, w⟩ := c
    simp only [Memory.above, List.all_cons, Bool.and_eq_true, decide_eq_true_eq] at h
    have hne : b ≠ a := by omega
    simp only [Memory.read, hne, if_false]
    exact ih h.2

theorem Memory.above_cons {a b : Nat} {v : Byte} {m : List Host.Cell} (h : a < b)
    (hm : Memory.above a m = true) : Memory.above a (Memory.cons b v m) = true := by
  unfold Memory.cons
  split
  · exact hm
  · simpa [Memory.above, h] using hm

theorem Memory.wf_of_cons {a : Nat} {v : Byte} {m : List Host.Cell} (ha : Memory.above a m = true)
    (hm : Memory.wf m = true) : Memory.wf (Memory.cons a v m) = true := by
  unfold Memory.cons
  split
  · exact hm
  · rename_i hv
    exact (Memory.wf_cons a v m).2 ⟨hv, ha, hm⟩

theorem Memory.read_cons (a : Nat) (v : Byte) (m : List Host.Cell) (x : Nat)
    (h : Memory.read m a = Memory.unlisted) :
    Memory.read (Memory.cons a v m) x = if x = a then v else Memory.read m x := by
  unfold Memory.cons
  by_cases hx : x = a
  · subst hx
    split
    · rename_i hv
      rw [if_pos rfl, h, hv]
    · rw [if_pos rfl]; simp only [Memory.read, if_true]
  · rw [if_neg hx]
    split
    · rfl
    · rw [Memory.read, if_neg (Ne.symm hx)]

theorem Memory.above_write {a b : Nat} {v : Byte} {m : List Host.Cell} (h : a < b)
    (hm : Memory.above a m = true) : Memory.above a (Memory.write m b v) = true := by
  induction m with
  | nil => exact Memory.above_cons h hm
  | cons c m ih =>
    obtain ⟨x, w⟩ := c
    have hm' : a < x ∧ Memory.above a m = true := by
      simpa [Memory.above] using hm
    simp only [Memory.write]
    split
    · exact Memory.above_cons h hm
    · split
      · exact Memory.above_cons h hm'.2
      · have := ih hm'.2
        simp only [Memory.above, List.all_cons, Bool.and_eq_true, decide_eq_true_eq] at this ⊢
        exact ⟨hm'.1, this⟩

/-- A write keeps the canonical form. -/
theorem Memory.wf_write {a : Nat} {v : Byte} {m : List Host.Cell} (hm : Memory.wf m = true) :
    Memory.wf (Memory.write m a v) = true := by
  induction m with
  | nil => exact Memory.wf_of_cons rfl hm
  | cons c m ih =>
    obtain ⟨x, w⟩ := c
    have hc := (Memory.wf_cons x w m).1 hm
    simp only [Memory.write]
    split
    · rename_i hlt
      refine Memory.wf_of_cons ?_ hm
      simp only [Memory.above, List.all_cons, Bool.and_eq_true, decide_eq_true_eq]
      exact ⟨hlt, Memory.above_mono (Nat.le_of_lt hlt) hc.2.1⟩
    · split
      · rename_i heq
        exact Memory.wf_of_cons (heq ▸ hc.2.1) hc.2.2
      · rename_i hlt hne
        exact (Memory.wf_cons x w _).2 ⟨hc.1, Memory.above_write (by omega) hc.2.1, ih hc.2.2⟩

/-- A read after a write: the byte written at its address, every other byte as before. -/
theorem Memory.read_write {m : List Host.Cell} (hm : Memory.wf m = true) (a : Nat) (v : Byte) (x : Nat) :
    Memory.read (Memory.write m a v) x = if x = a then v else Memory.read m x := by
  induction m with
  | nil => exact Memory.read_cons a v [] x rfl
  | cons c m ih =>
    obtain ⟨b, w⟩ := c
    have hc := (Memory.wf_cons b w m).1 hm
    simp only [Memory.write]
    split
    · rename_i hlt
      refine Memory.read_cons a v _ x (Memory.read_of_above ?_)
      simp only [Memory.above, List.all_cons, Bool.and_eq_true, decide_eq_true_eq]
      exact ⟨hlt, Memory.above_mono (Nat.le_of_lt hlt) hc.2.1⟩
    · split
      · rename_i heq
        subst heq
        rw [Memory.read_cons a v m x (Memory.read_of_above hc.2.1)]
        by_cases hx : x = a
        · rw [if_pos hx, if_pos hx]
        · rw [if_neg hx, if_neg hx, Memory.read, if_neg (Ne.symm hx)]
      · rename_i hlt hne
        simp only [Memory.read, ih hc.2.2]
        by_cases hx : b = x
        · rw [if_pos hx, if_pos hx, if_neg (by omega)]
        · rw [if_neg hx, if_neg hx]

/-- The cells of a written list are old cells or the one written. -/
theorem Memory.all_write {p : Nat → Bool} {m : List Host.Cell} {a : Nat} {v : Byte} (ha : p a = true)
    (hm : m.all (fun c => p c.1) = true) : (Memory.write m a v).all (fun c => p c.1) = true := by
  have hcons : ∀ l : List Host.Cell, l.all (fun c => p c.1) = true →
      (Memory.cons a v l).all (fun c => p c.1) = true := by
    intro l hl
    unfold Memory.cons
    split
    · exact hl
    · simpa [ha] using hl
  induction m with
  | nil => exact hcons [] hm
  | cons c m ih =>
    obtain ⟨b, w⟩ := c
    have hm' : p b = true ∧ m.all (fun c => p c.1) = true := by simpa using hm
    simp only [Memory.write]
    split
    · exact hcons _ hm
    · split
      · exact hcons _ hm'.2
      · simp only [List.all_cons, Bool.and_eq_true]
        exact ⟨hm'.1, ih hm'.2⟩

end Sys2Proof.Machine
end

