-- ==== Sys2Proof/Laws/State.lean ====
section
/-! SUPPORT. One lemma per field per named update of the state, each by rfl, so that no later proof unfolds a record
update. -/

namespace Sys2Proof.Machine

/-! ## State.emit -/

@[simp] theorem State.emit_par (s : State) (e : Event) : (s.emit e).par = s.par := rfl
@[simp] theorem State.emit_ops (s : State) (e : Event) : (s.emit e).ops = s.ops := rfl
@[simp] theorem State.emit_ctrl (s : State) (e : Event) : (s.emit e).ctrl = s.ctrl := rfl
@[simp] theorem State.emit_status (s : State) (e : Event) : (s.emit e).status = s.status := rfl
@[simp] theorem State.emit_arg (s : State) (e : Event) : (s.emit e).arg = s.arg := rfl
@[simp] theorem State.emit_result (s : State) (e : Event) : (s.emit e).result = s.result := rfl
@[simp] theorem State.emit_toCount (s : State) (e : Event) : (s.emit e).toCount = s.toCount := rfl
@[simp] theorem State.emit_xfer (s : State) (e : Event) : (s.emit e).xfer = s.xfer := rfl
@[simp] theorem State.emit_ghost (s : State) (e : Event) : (s.emit e).ghost = s.ghost := rfl
@[simp] theorem State.emit_hook (s : State) (e : Event) : (s.emit e).hook = s.hook := rfl
@[simp] theorem State.emit_txShift (s : State) (e : Event) : (s.emit e).txShift = s.txShift := rfl
@[simp] theorem State.emit_rxLatch (s : State) (e : Event) : (s.emit e).rxLatch = s.rxLatch := rfl
@[simp] theorem State.emit_xferBusy (s : State) (e : Event) : (s.emit e).xferBusy = s.xferBusy := rfl
@[simp] theorem State.emit_blk (s : State) (e : Event) : (s.emit e).blk = s.blk := rfl
@[simp] theorem State.emit_cpc (s : State) (e : Event) : (s.emit e).cpc = s.cpc := rfl
@[simp] theorem State.emit_trace (s : State) (e : Event) : (s.emit e).trace = s.trace ++ [e] := rfl
@[simp] theorem State.emit_fault (s : State) (e : Event) : (s.emit e).fault = s.fault := rfl
@[simp] theorem State.emit_mem (s : State) (e : Event) : (s.emit e).mem = s.mem := rfl
@[simp] theorem State.emit_sched (s : State) (e : Event) : (s.emit e).sched = s.sched := rfl
@[simp] theorem State.emit_tick (s : State) (e : Event) : (s.emit e).tick = s.tick := rfl
@[simp] theorem State.emit_ie (s : State) (e : Event) : (s.emit e).ie = s.ie := rfl
@[simp] theorem State.emit_en (s : State) (e : Event) : (s.emit e).en = s.en := rfl
@[simp] theorem State.emit_role (s : State) (e : Event) : (s.emit e).role = s.role := rfl
@[simp] theorem State.emit_tc (s : State) (e : Event) : (s.emit e).tc = s.tc := rfl
@[simp] theorem State.emit_irqPending (s : State) (e : Event) : (s.emit e).irqPending = s.irqPending := rfl

/-! ## State.putTc -/

@[simp] theorem State.putTc_par (s : State) (b : Bool) : (s.putTc b).par = s.par := rfl
@[simp] theorem State.putTc_ops (s : State) (b : Bool) : (s.putTc b).ops = s.ops := rfl
@[simp] theorem State.putTc_ctrl (s : State) (b : Bool) : (s.putTc b).ctrl = s.ctrl := rfl
@[simp] theorem State.putTc_status (s : State) (b : Bool) : (s.putTc b).status = setBit s.status 7 b := rfl
@[simp] theorem State.putTc_arg (s : State) (b : Bool) : (s.putTc b).arg = s.arg := rfl
@[simp] theorem State.putTc_result (s : State) (b : Bool) : (s.putTc b).result = s.result := rfl
@[simp] theorem State.putTc_toCount (s : State) (b : Bool) : (s.putTc b).toCount = s.toCount := rfl
@[simp] theorem State.putTc_xfer (s : State) (b : Bool) : (s.putTc b).xfer = s.xfer := rfl
@[simp] theorem State.putTc_ghost (s : State) (b : Bool) : (s.putTc b).ghost = s.ghost := rfl
@[simp] theorem State.putTc_hook (s : State) (b : Bool) : (s.putTc b).hook = s.hook := rfl
@[simp] theorem State.putTc_txShift (s : State) (b : Bool) : (s.putTc b).txShift = s.txShift := rfl
@[simp] theorem State.putTc_rxLatch (s : State) (b : Bool) : (s.putTc b).rxLatch = s.rxLatch := rfl
@[simp] theorem State.putTc_xferBusy (s : State) (b : Bool) : (s.putTc b).xferBusy = s.xferBusy := rfl
@[simp] theorem State.putTc_blk (s : State) (b : Bool) : (s.putTc b).blk = s.blk := rfl
@[simp] theorem State.putTc_cpc (s : State) (b : Bool) : (s.putTc b).cpc = s.cpc := rfl
@[simp] theorem State.putTc_trace (s : State) (b : Bool) : (s.putTc b).trace = s.trace := rfl
@[simp] theorem State.putTc_fault (s : State) (b : Bool) : (s.putTc b).fault = s.fault := rfl
@[simp] theorem State.putTc_mem (s : State) (b : Bool) : (s.putTc b).mem = s.mem := rfl
@[simp] theorem State.putTc_sched (s : State) (b : Bool) : (s.putTc b).sched = s.sched := rfl
@[simp] theorem State.putTc_tick (s : State) (b : Bool) : (s.putTc b).tick = s.tick := rfl
@[simp] theorem State.putTc_ie (s : State) (b : Bool) : (s.putTc b).ie = s.ie := rfl
@[simp] theorem State.putTc_en (s : State) (b : Bool) : (s.putTc b).en = s.en := rfl
@[simp] theorem State.putTc_role (s : State) (b : Bool) : (s.putTc b).role = s.role := rfl

/-! ## State.nextOp -/

@[simp] theorem State.nextOp_par (s : State) : (s.nextOp).par = s.par := rfl
@[simp] theorem State.nextOp_ops (s : State) : (s.nextOp).ops = s.ops := rfl
@[simp] theorem State.nextOp_ctrl (s : State) : (s.nextOp).ctrl = s.ctrl := rfl
@[simp] theorem State.nextOp_status (s : State) : (s.nextOp).status = s.status := rfl
@[simp] theorem State.nextOp_arg (s : State) : (s.nextOp).arg = s.arg := rfl
@[simp] theorem State.nextOp_result (s : State) : (s.nextOp).result = s.result := rfl
@[simp] theorem State.nextOp_toCount (s : State) : (s.nextOp).toCount = s.toCount := rfl
@[simp] theorem State.nextOp_xfer (s : State) : (s.nextOp).xfer = s.xfer := rfl
@[simp] theorem State.nextOp_ghost (s : State) : (s.nextOp).ghost = s.ghost := rfl
@[simp] theorem State.nextOp_hook (s : State) : (s.nextOp).hook = s.hook := rfl
@[simp] theorem State.nextOp_txShift (s : State) : (s.nextOp).txShift = s.txShift := rfl
@[simp] theorem State.nextOp_rxLatch (s : State) : (s.nextOp).rxLatch = s.rxLatch := rfl
@[simp] theorem State.nextOp_xferBusy (s : State) : (s.nextOp).xferBusy = s.xferBusy := rfl
@[simp] theorem State.nextOp_blk (s : State) : (s.nextOp).blk = s.blk := rfl
@[simp] theorem State.nextOp_cpc (s : State) : (s.nextOp).cpc = s.cpc + 1 := rfl
@[simp] theorem State.nextOp_trace (s : State) : (s.nextOp).trace = s.trace := rfl
@[simp] theorem State.nextOp_fault (s : State) : (s.nextOp).fault = s.fault := rfl
@[simp] theorem State.nextOp_mem (s : State) : (s.nextOp).mem = s.mem := rfl
@[simp] theorem State.nextOp_sched (s : State) : (s.nextOp).sched = s.sched := rfl
@[simp] theorem State.nextOp_tick (s : State) : (s.nextOp).tick = s.tick := rfl
@[simp] theorem State.nextOp_ie (s : State) : (s.nextOp).ie = s.ie := rfl
@[simp] theorem State.nextOp_en (s : State) : (s.nextOp).en = s.en := rfl
@[simp] theorem State.nextOp_role (s : State) : (s.nextOp).role = s.role := rfl
@[simp] theorem State.nextOp_tc (s : State) : (s.nextOp).tc = s.tc := rfl
@[simp] theorem State.nextOp_irqPending (s : State) : (s.nextOp).irqPending = s.irqPending := rfl

/-! ## State.complete -/

@[simp] theorem State.complete_par (s : State) (op : Instr) (r : Result) : (s.complete op r).par = s.par := rfl
@[simp] theorem State.complete_ops (s : State) (op : Instr) (r : Result) : (s.complete op r).ops = s.ops := rfl
@[simp] theorem State.complete_ctrl (s : State) (op : Instr) (r : Result) : (s.complete op r).ctrl = s.ctrl := rfl
@[simp] theorem State.complete_status (s : State) (op : Instr) (r : Result) : (s.complete op r).status = s.status := rfl
@[simp] theorem State.complete_arg (s : State) (op : Instr) (r : Result) : (s.complete op r).arg = s.arg := rfl
@[simp] theorem State.complete_result (s : State) (op : Instr) (r : Result) : (s.complete op r).result = r.byte := rfl
@[simp] theorem State.complete_toCount (s : State) (op : Instr) (r : Result) : (s.complete op r).toCount = s.toCount := rfl
@[simp] theorem State.complete_xfer (s : State) (op : Instr) (r : Result) : (s.complete op r).xfer = s.xfer := rfl
@[simp] theorem State.complete_ghost (s : State) (op : Instr) (r : Result) : (s.complete op r).ghost = s.ghost := rfl
@[simp] theorem State.complete_hook (s : State) (op : Instr) (r : Result) : (s.complete op r).hook = s.hook := rfl
@[simp] theorem State.complete_txShift (s : State) (op : Instr) (r : Result) : (s.complete op r).txShift = s.txShift := rfl
@[simp] theorem State.complete_rxLatch (s : State) (op : Instr) (r : Result) : (s.complete op r).rxLatch = s.rxLatch := rfl
@[simp] theorem State.complete_xferBusy (s : State) (op : Instr) (r : Result) : (s.complete op r).xferBusy = s.xferBusy := rfl
@[simp] theorem State.complete_blk (s : State) (op : Instr) (r : Result) : (s.complete op r).blk = s.blk := rfl
@[simp] theorem State.complete_cpc (s : State) (op : Instr) (r : Result) : (s.complete op r).cpc = s.cpc + 1 := rfl
@[simp] theorem State.complete_trace (s : State) (op : Instr) (r : Result) : (s.complete op r).trace = s.trace ++ [.done op r] := rfl
@[simp] theorem State.complete_fault (s : State) (op : Instr) (r : Result) : (s.complete op r).fault = s.fault := rfl
@[simp] theorem State.complete_mem (s : State) (op : Instr) (r : Result) : (s.complete op r).mem = s.mem := rfl
@[simp] theorem State.complete_sched (s : State) (op : Instr) (r : Result) : (s.complete op r).sched = s.sched := rfl
@[simp] theorem State.complete_tick (s : State) (op : Instr) (r : Result) : (s.complete op r).tick = s.tick := rfl
@[simp] theorem State.complete_ie (s : State) (op : Instr) (r : Result) : (s.complete op r).ie = s.ie := rfl
@[simp] theorem State.complete_en (s : State) (op : Instr) (r : Result) : (s.complete op r).en = s.en := rfl
@[simp] theorem State.complete_role (s : State) (op : Instr) (r : Result) : (s.complete op r).role = s.role := rfl
@[simp] theorem State.complete_tc (s : State) (op : Instr) (r : Result) : (s.complete op r).tc = s.tc := rfl
@[simp] theorem State.complete_irqPending (s : State) (op : Instr) (r : Result) : (s.complete op r).irqPending = s.irqPending := rfl

/-! ## raiseFault -/

@[simp] theorem raiseFault_par (f : Trap) (s : State) : (raiseFault f s).par = s.par := rfl
@[simp] theorem raiseFault_ops (f : Trap) (s : State) : (raiseFault f s).ops = s.ops := rfl
@[simp] theorem raiseFault_ctrl (f : Trap) (s : State) : (raiseFault f s).ctrl = s.ctrl := rfl
@[simp] theorem raiseFault_status (f : Trap) (s : State) : (raiseFault f s).status = s.status := rfl
@[simp] theorem raiseFault_arg (f : Trap) (s : State) : (raiseFault f s).arg = s.arg := rfl
@[simp] theorem raiseFault_result (f : Trap) (s : State) : (raiseFault f s).result = s.result := rfl
@[simp] theorem raiseFault_toCount (f : Trap) (s : State) : (raiseFault f s).toCount = s.toCount := rfl
@[simp] theorem raiseFault_xfer (f : Trap) (s : State) : (raiseFault f s).xfer = s.xfer := rfl
@[simp] theorem raiseFault_ghost (f : Trap) (s : State) : (raiseFault f s).ghost = s.ghost := rfl
@[simp] theorem raiseFault_hook (f : Trap) (s : State) : (raiseFault f s).hook = s.hook := rfl
@[simp] theorem raiseFault_txShift (f : Trap) (s : State) : (raiseFault f s).txShift = s.txShift := rfl
@[simp] theorem raiseFault_rxLatch (f : Trap) (s : State) : (raiseFault f s).rxLatch = s.rxLatch := rfl
@[simp] theorem raiseFault_xferBusy (f : Trap) (s : State) : (raiseFault f s).xferBusy = s.xferBusy := rfl
@[simp] theorem raiseFault_blk (f : Trap) (s : State) : (raiseFault f s).blk = s.blk := rfl
@[simp] theorem raiseFault_cpc (f : Trap) (s : State) : (raiseFault f s).cpc = s.cpc := rfl
@[simp] theorem raiseFault_trace (f : Trap) (s : State) : (raiseFault f s).trace = s.trace ++ [.faultEv f.code f.info] := rfl
@[simp] theorem raiseFault_fault (f : Trap) (s : State) : (raiseFault f s).fault = f.code.byte := rfl
@[simp] theorem raiseFault_mem (f : Trap) (s : State) : (raiseFault f s).mem = s.mem := rfl
@[simp] theorem raiseFault_sched (f : Trap) (s : State) : (raiseFault f s).sched = s.sched := rfl
@[simp] theorem raiseFault_tick (f : Trap) (s : State) : (raiseFault f s).tick = s.tick := rfl
@[simp] theorem raiseFault_ie (f : Trap) (s : State) : (raiseFault f s).ie = s.ie := rfl
@[simp] theorem raiseFault_en (f : Trap) (s : State) : (raiseFault f s).en = s.en := rfl
@[simp] theorem raiseFault_role (f : Trap) (s : State) : (raiseFault f s).role = s.role := rfl
@[simp] theorem raiseFault_tc (f : Trap) (s : State) : (raiseFault f s).tc = s.tc := rfl
@[simp] theorem raiseFault_irqPending (f : Trap) (s : State) : (raiseFault f s).irqPending = s.irqPending := rfl

/-! ## startExchange -/

@[simp] theorem startExchange_par (s : State) : (startExchange s).par = s.par := rfl
@[simp] theorem startExchange_ops (s : State) : (startExchange s).ops = s.ops := rfl
@[simp] theorem startExchange_ctrl (s : State) : (startExchange s).ctrl = s.ctrl := rfl
@[simp] theorem startExchange_status (s : State) : (startExchange s).status = s.status := rfl
@[simp] theorem startExchange_arg (s : State) : (startExchange s).arg = s.arg := rfl
@[simp] theorem startExchange_result (s : State) : (startExchange s).result = s.result := rfl
@[simp] theorem startExchange_toCount (s : State) : (startExchange s).toCount = s.toCount := rfl
@[simp] theorem startExchange_xfer (s : State) : (startExchange s).xfer = s.xfer := rfl
@[simp] theorem startExchange_ghost (s : State) : (startExchange s).ghost = s.ghost := rfl
@[simp] theorem startExchange_hook (s : State) : (startExchange s).hook = s.hook := rfl
@[simp] theorem startExchange_txShift (s : State) : (startExchange s).txShift = s.txShift := rfl
@[simp] theorem startExchange_rxLatch (s : State) : (startExchange s).rxLatch = s.rxLatch := rfl
@[simp] theorem startExchange_xferBusy (s : State) : (startExchange s).xferBusy = true := rfl
@[simp] theorem startExchange_blk (s : State) : (startExchange s).blk = s.blk := rfl
@[simp] theorem startExchange_cpc (s : State) : (startExchange s).cpc = s.cpc := rfl
@[simp] theorem startExchange_trace (s : State) : (startExchange s).trace = s.trace ++ [.xferStart s.txShift] := rfl
@[simp] theorem startExchange_fault (s : State) : (startExchange s).fault = s.fault := rfl
@[simp] theorem startExchange_mem (s : State) : (startExchange s).mem = s.mem := rfl
@[simp] theorem startExchange_sched (s : State) : (startExchange s).sched = s.sched := rfl
@[simp] theorem startExchange_tick (s : State) : (startExchange s).tick = s.tick := rfl
@[simp] theorem startExchange_ie (s : State) : (startExchange s).ie = s.ie := rfl
@[simp] theorem startExchange_en (s : State) : (startExchange s).en = s.en := rfl
@[simp] theorem startExchange_role (s : State) : (startExchange s).role = s.role := rfl
@[simp] theorem startExchange_tc (s : State) : (startExchange s).tc = s.tc := rfl
@[simp] theorem startExchange_irqPending (s : State) : (startExchange s).irqPending = s.irqPending := rfl

/-! ## loadShift -/

@[simp] theorem loadShift_par (b : Byte) (s : State) : (loadShift b s).par = s.par := rfl
@[simp] theorem loadShift_ops (b : Byte) (s : State) : (loadShift b s).ops = s.ops := rfl
@[simp] theorem loadShift_ctrl (b : Byte) (s : State) : (loadShift b s).ctrl = s.ctrl := rfl
@[simp] theorem loadShift_status (b : Byte) (s : State) : (loadShift b s).status = setBit s.status 7 false := rfl
@[simp] theorem loadShift_arg (b : Byte) (s : State) : (loadShift b s).arg = s.arg := rfl
@[simp] theorem loadShift_result (b : Byte) (s : State) : (loadShift b s).result = s.result := rfl
@[simp] theorem loadShift_toCount (b : Byte) (s : State) : (loadShift b s).toCount = s.toCount := rfl
@[simp] theorem loadShift_xfer (b : Byte) (s : State) : (loadShift b s).xfer = s.xfer := rfl
@[simp] theorem loadShift_ghost (b : Byte) (s : State) : (loadShift b s).ghost = s.ghost := rfl
@[simp] theorem loadShift_hook (b : Byte) (s : State) : (loadShift b s).hook = s.hook := rfl
@[simp] theorem loadShift_txShift (b : Byte) (s : State) : (loadShift b s).txShift = b := rfl
@[simp] theorem loadShift_rxLatch (b : Byte) (s : State) : (loadShift b s).rxLatch = s.rxLatch := rfl
@[simp] theorem loadShift_xferBusy (b : Byte) (s : State) : (loadShift b s).xferBusy = s.xferBusy := rfl
@[simp] theorem loadShift_blk (b : Byte) (s : State) : (loadShift b s).blk = s.blk := rfl
@[simp] theorem loadShift_cpc (b : Byte) (s : State) : (loadShift b s).cpc = s.cpc := rfl
@[simp] theorem loadShift_trace (b : Byte) (s : State) : (loadShift b s).trace = s.trace ++ [.dataWr b true] := rfl
@[simp] theorem loadShift_fault (b : Byte) (s : State) : (loadShift b s).fault = s.fault := rfl
@[simp] theorem loadShift_mem (b : Byte) (s : State) : (loadShift b s).mem = s.mem := rfl
@[simp] theorem loadShift_sched (b : Byte) (s : State) : (loadShift b s).sched = s.sched := rfl
@[simp] theorem loadShift_tick (b : Byte) (s : State) : (loadShift b s).tick = s.tick := rfl
@[simp] theorem loadShift_ie (b : Byte) (s : State) : (loadShift b s).ie = s.ie := rfl
@[simp] theorem loadShift_en (b : Byte) (s : State) : (loadShift b s).en = s.en := rfl
@[simp] theorem loadShift_role (b : Byte) (s : State) : (loadShift b s).role = s.role := rfl

/-! ## dataRead -/

@[simp] theorem dataRead_par (s : State) : (dataRead s).par = s.par := rfl
@[simp] theorem dataRead_ops (s : State) : (dataRead s).ops = s.ops := rfl
@[simp] theorem dataRead_ctrl (s : State) : (dataRead s).ctrl = s.ctrl := rfl
@[simp] theorem dataRead_status (s : State) : (dataRead s).status = setBit s.status 7 false := rfl
@[simp] theorem dataRead_arg (s : State) : (dataRead s).arg = s.arg := rfl
@[simp] theorem dataRead_result (s : State) : (dataRead s).result = s.result := rfl
@[simp] theorem dataRead_toCount (s : State) : (dataRead s).toCount = s.toCount := rfl
@[simp] theorem dataRead_xfer (s : State) : (dataRead s).xfer = s.xfer := rfl
@[simp] theorem dataRead_ghost (s : State) : (dataRead s).ghost = s.ghost := rfl
@[simp] theorem dataRead_hook (s : State) : (dataRead s).hook = s.hook := rfl
@[simp] theorem dataRead_txShift (s : State) : (dataRead s).txShift = s.txShift := rfl
@[simp] theorem dataRead_rxLatch (s : State) : (dataRead s).rxLatch = s.rxLatch := rfl
@[simp] theorem dataRead_xferBusy (s : State) : (dataRead s).xferBusy = s.xferBusy := rfl
@[simp] theorem dataRead_blk (s : State) : (dataRead s).blk = s.blk := rfl
@[simp] theorem dataRead_cpc (s : State) : (dataRead s).cpc = s.cpc := rfl
@[simp] theorem dataRead_trace (s : State) : (dataRead s).trace = s.trace ++ [.dataRd s.rxLatch] := rfl
@[simp] theorem dataRead_fault (s : State) : (dataRead s).fault = s.fault := rfl
@[simp] theorem dataRead_mem (s : State) : (dataRead s).mem = s.mem := rfl
@[simp] theorem dataRead_sched (s : State) : (dataRead s).sched = s.sched := rfl
@[simp] theorem dataRead_tick (s : State) : (dataRead s).tick = s.tick := rfl
@[simp] theorem dataRead_ie (s : State) : (dataRead s).ie = s.ie := rfl
@[simp] theorem dataRead_en (s : State) : (dataRead s).en = s.en := rfl
@[simp] theorem dataRead_role (s : State) : (dataRead s).role = s.role := rfl

/-! ## completeExchange -/

@[simp] theorem completeExchange_par (b : Byte) (s : State) : (completeExchange b s).par = s.par := rfl
@[simp] theorem completeExchange_ops (b : Byte) (s : State) : (completeExchange b s).ops = s.ops := rfl
@[simp] theorem completeExchange_ctrl (b : Byte) (s : State) : (completeExchange b s).ctrl = s.ctrl := rfl
@[simp] theorem completeExchange_status (b : Byte) (s : State) : (completeExchange b s).status = setBit s.status 7 true := rfl
@[simp] theorem completeExchange_arg (b : Byte) (s : State) : (completeExchange b s).arg = s.arg := rfl
@[simp] theorem completeExchange_result (b : Byte) (s : State) : (completeExchange b s).result = s.result := rfl
@[simp] theorem completeExchange_toCount (b : Byte) (s : State) : (completeExchange b s).toCount = s.toCount := rfl
@[simp] theorem completeExchange_xfer (b : Byte) (s : State) : (completeExchange b s).xfer = s.xfer := rfl
@[simp] theorem completeExchange_ghost (b : Byte) (s : State) : (completeExchange b s).ghost = s.ghost := rfl
@[simp] theorem completeExchange_hook (b : Byte) (s : State) : (completeExchange b s).hook = s.hook := rfl
@[simp] theorem completeExchange_txShift (b : Byte) (s : State) : (completeExchange b s).txShift = s.txShift := rfl
@[simp] theorem completeExchange_rxLatch (b : Byte) (s : State) : (completeExchange b s).rxLatch = b := rfl
@[simp] theorem completeExchange_xferBusy (b : Byte) (s : State) : (completeExchange b s).xferBusy = false := rfl
@[simp] theorem completeExchange_blk (b : Byte) (s : State) : (completeExchange b s).blk = s.blk := rfl
@[simp] theorem completeExchange_cpc (b : Byte) (s : State) : (completeExchange b s).cpc = s.cpc := rfl
@[simp] theorem completeExchange_trace (b : Byte) (s : State) : (completeExchange b s).trace = s.trace ++ [.xferDone s.txShift b] := rfl
@[simp] theorem completeExchange_fault (b : Byte) (s : State) : (completeExchange b s).fault = s.fault := rfl
@[simp] theorem completeExchange_mem (b : Byte) (s : State) : (completeExchange b s).mem = s.mem := rfl
@[simp] theorem completeExchange_sched (b : Byte) (s : State) : (completeExchange b s).sched = s.sched := rfl
@[simp] theorem completeExchange_tick (b : Byte) (s : State) : (completeExchange b s).tick = s.tick := rfl
@[simp] theorem completeExchange_ie (b : Byte) (s : State) : (completeExchange b s).ie = s.ie := rfl
@[simp] theorem completeExchange_en (b : Byte) (s : State) : (completeExchange b s).en = s.en := rfl
@[simp] theorem completeExchange_role (b : Byte) (s : State) : (completeExchange b s).role = s.role := rfl

/-! ## beginWait -/

@[simp] theorem beginWait_par (s : State) : (beginWait s).par = s.par := rfl
@[simp] theorem beginWait_ops (s : State) : (beginWait s).ops = s.ops := rfl
@[simp] theorem beginWait_ctrl (s : State) : (beginWait s).ctrl = s.ctrl := rfl
@[simp] theorem beginWait_status (s : State) : (beginWait s).status = s.status := rfl
@[simp] theorem beginWait_arg (s : State) : (beginWait s).arg = s.arg := rfl
@[simp] theorem beginWait_result (s : State) : (beginWait s).result = s.result := rfl
@[simp] theorem beginWait_toCount (s : State) : (beginWait s).toCount = s.toCount := rfl
@[simp] theorem beginWait_xfer (s : State) : (beginWait s).xfer = s.xfer := rfl
@[simp] theorem beginWait_ghost (s : State) : (beginWait s).ghost = s.ghost := rfl
@[simp] theorem beginWait_hook (s : State) : (beginWait s).hook = s.hook := rfl
@[simp] theorem beginWait_txShift (s : State) : (beginWait s).txShift = s.txShift := rfl
@[simp] theorem beginWait_rxLatch (s : State) : (beginWait s).rxLatch = s.rxLatch := rfl
@[simp] theorem beginWait_xferBusy (s : State) : (beginWait s).xferBusy = s.xferBusy := rfl
@[simp] theorem beginWait_blk (s : State) : (beginWait s).blk = { s.blk with t := s.blk.timeout, phase := .wait } := rfl
@[simp] theorem beginWait_cpc (s : State) : (beginWait s).cpc = s.cpc := rfl
@[simp] theorem beginWait_trace (s : State) : (beginWait s).trace = s.trace := rfl
@[simp] theorem beginWait_fault (s : State) : (beginWait s).fault = s.fault := rfl
@[simp] theorem beginWait_mem (s : State) : (beginWait s).mem = s.mem := rfl
@[simp] theorem beginWait_sched (s : State) : (beginWait s).sched = s.sched := rfl
@[simp] theorem beginWait_tick (s : State) : (beginWait s).tick = s.tick := rfl
@[simp] theorem beginWait_ie (s : State) : (beginWait s).ie = s.ie := rfl
@[simp] theorem beginWait_en (s : State) : (beginWait s).en = s.en := rfl
@[simp] theorem beginWait_role (s : State) : (beginWait s).role = s.role := rfl
@[simp] theorem beginWait_tc (s : State) : (beginWait s).tc = s.tc := rfl
@[simp] theorem beginWait_irqPending (s : State) : (beginWait s).irqPending = s.irqPending := rfl

/-! ## toIdle -/

@[simp] theorem toIdle_par (s : State) : (toIdle s).par = s.par := rfl
@[simp] theorem toIdle_ops (s : State) : (toIdle s).ops = s.ops := rfl
@[simp] theorem toIdle_ctrl (s : State) : (toIdle s).ctrl = s.ctrl := rfl
@[simp] theorem toIdle_status (s : State) : (toIdle s).status = s.status := rfl
@[simp] theorem toIdle_arg (s : State) : (toIdle s).arg = s.arg := rfl
@[simp] theorem toIdle_result (s : State) : (toIdle s).result = s.result := rfl
@[simp] theorem toIdle_toCount (s : State) : (toIdle s).toCount = s.toCount := rfl
@[simp] theorem toIdle_xfer (s : State) : (toIdle s).xfer = { s.xfer with mode := .idle } := rfl
@[simp] theorem toIdle_ghost (s : State) : (toIdle s).ghost = s.ghost := rfl
@[simp] theorem toIdle_hook (s : State) : (toIdle s).hook = s.hook := rfl
@[simp] theorem toIdle_txShift (s : State) : (toIdle s).txShift = s.txShift := rfl
@[simp] theorem toIdle_rxLatch (s : State) : (toIdle s).rxLatch = s.rxLatch := rfl
@[simp] theorem toIdle_xferBusy (s : State) : (toIdle s).xferBusy = s.xferBusy := rfl
@[simp] theorem toIdle_blk (s : State) : (toIdle s).blk = s.blk := rfl
@[simp] theorem toIdle_cpc (s : State) : (toIdle s).cpc = s.cpc := rfl
@[simp] theorem toIdle_trace (s : State) : (toIdle s).trace = s.trace := rfl
@[simp] theorem toIdle_fault (s : State) : (toIdle s).fault = s.fault := rfl
@[simp] theorem toIdle_mem (s : State) : (toIdle s).mem = s.mem := rfl
@[simp] theorem toIdle_sched (s : State) : (toIdle s).sched = s.sched := rfl
@[simp] theorem toIdle_tick (s : State) : (toIdle s).tick = s.tick := rfl
@[simp] theorem toIdle_ie (s : State) : (toIdle s).ie = s.ie := rfl
@[simp] theorem toIdle_en (s : State) : (toIdle s).en = s.en := rfl
@[simp] theorem toIdle_role (s : State) : (toIdle s).role = s.role := rfl
@[simp] theorem toIdle_tc (s : State) : (toIdle s).tc = s.tc := rfl
@[simp] theorem toIdle_irqPending (s : State) : (toIdle s).irqPending = s.irqPending := rfl

/-! ## State.tickOn -/

@[simp] theorem State.tickOn_par (s : State) : (s.tickOn).par = s.par := rfl
@[simp] theorem State.tickOn_ops (s : State) : (s.tickOn).ops = s.ops := rfl
@[simp] theorem State.tickOn_ctrl (s : State) : (s.tickOn).ctrl = s.ctrl := rfl
@[simp] theorem State.tickOn_status (s : State) : (s.tickOn).status = s.status := rfl
@[simp] theorem State.tickOn_arg (s : State) : (s.tickOn).arg = s.arg := rfl
@[simp] theorem State.tickOn_result (s : State) : (s.tickOn).result = s.result := rfl
@[simp] theorem State.tickOn_toCount (s : State) : (s.tickOn).toCount = s.toCount := rfl
@[simp] theorem State.tickOn_xfer (s : State) : (s.tickOn).xfer = s.xfer := rfl
@[simp] theorem State.tickOn_ghost (s : State) : (s.tickOn).ghost = s.ghost := rfl
@[simp] theorem State.tickOn_hook (s : State) : (s.tickOn).hook = s.hook := rfl
@[simp] theorem State.tickOn_txShift (s : State) : (s.tickOn).txShift = s.txShift := rfl
@[simp] theorem State.tickOn_rxLatch (s : State) : (s.tickOn).rxLatch = s.rxLatch := rfl
@[simp] theorem State.tickOn_xferBusy (s : State) : (s.tickOn).xferBusy = s.xferBusy := rfl
@[simp] theorem State.tickOn_blk (s : State) : (s.tickOn).blk = s.blk := rfl
@[simp] theorem State.tickOn_cpc (s : State) : (s.tickOn).cpc = s.cpc := rfl
@[simp] theorem State.tickOn_trace (s : State) : (s.tickOn).trace = s.trace := rfl
@[simp] theorem State.tickOn_fault (s : State) : (s.tickOn).fault = s.fault := rfl
@[simp] theorem State.tickOn_mem (s : State) : (s.tickOn).mem = s.mem := rfl
@[simp] theorem State.tickOn_sched (s : State) : (s.tickOn).sched = s.sched.tail := rfl
@[simp] theorem State.tickOn_tick (s : State) : (s.tickOn).tick = s.tick + 1 := rfl
@[simp] theorem State.tickOn_ie (s : State) : (s.tickOn).ie = s.ie := rfl
@[simp] theorem State.tickOn_en (s : State) : (s.tickOn).en = s.en := rfl
@[simp] theorem State.tickOn_role (s : State) : (s.tickOn).role = s.role := rfl
@[simp] theorem State.tickOn_tc (s : State) : (s.tickOn).tc = s.tc := rfl
@[simp] theorem State.tickOn_irqPending (s : State) : (s.tickOn).irqPending = s.irqPending := rfl

end Sys2Proof.Machine
end

