-- ==== Sys2Proof/Laws/Ops.lean ====
section
/-! SUPPORT. What each shared operation can do, said once: bits, memory accesses, DATA's primitives, aborting,
committing a step, sending and storing an async byte, and the step itself. -/

namespace Sys2Proof.Machine

/-! ## Bits -/

/-- A set bit reads as set, every other bit as before. -/
theorem bit_setBit (v : Byte) (k : Nat) (b : Bool) (j : Nat) (hk : k < 8) :
    bit (setBit v k b) j = if j = k then b else bit v j := by
  by_cases hj : j < 8
  · cases b <;> simp [bit, setBit] <;> grind
  · have hne : j ≠ k := by omega
    simp [bit, hne, BitVec.getLsbD_of_ge _ _ (Nat.le_of_not_lt hj)]

@[simp] theorem State.putTc_tc (s : State) (b : Bool) : (s.putTc b).tc = b := by
  simp [State.tc, bit_setBit]

@[simp] theorem loadShift_tc (b : Byte) (s : State) : (loadShift b s).tc = false := by
  simp [State.tc, bit_setBit]

@[simp] theorem dataRead_tc (s : State) : (dataRead s).tc = false := by
  simp [State.tc, bit_setBit]

@[simp] theorem completeExchange_tc (b : Byte) (s : State) : (completeExchange b s).tc = true := by
  simp [State.tc, bit_setBit]

/-- The reserved bits 6:1 of STATUS stay 0 when TC is written. -/
theorem setBit_tc_reserved {v : Byte} (b : Bool) (h : v &&& 0x7E#8 = 0x00#8) :
    setBit v 7 b &&& 0x7E#8 = 0x00#8 := by
  revert v
  cases b <;> decide

/-- The reserved bits 6:1 of STATUS stay 0 when DIV2 is written. -/
theorem setBit_div2_reserved {v : Byte} (b : Bool) (h : v &&& 0x7E#8 = 0x00#8) :
    setBit v 0 b &&& 0x7E#8 = 0x00#8 := by
  revert v
  cases b <;> decide

/-! ## Committing a step -/

/-- A committed step answers a next state: the state its part answered, or the state with the fault raised. -/
theorem commit_next {s t : State} {r : Except Trap State} :
    commit s r = .next t ↔ r = .ok t ∨ ∃ f, r = .error f ∧ t = raiseFault f s := by
  cases r <;> simp [commit, eq_comm]

/-! ## Caller memory -/

theorem memRead_ok {a : Nat} {s : State} {b : Byte} :
    memRead a s = .ok b ↔ existsAt s.par a = true ∧ b = Memory.read s.mem a := by
  unfold memRead
  cases existsAt s.par a
  · simp
  · simp only [if_true, Except.ok.injEq, true_and]
    exact eq_comm

theorem memWrite_ok {a : Nat} {v : Byte} {s t : State} :
    memWrite a v s = .ok t ↔ existsAt s.par a = true ∧ t = { s with mem := Memory.write s.mem a v } := by
  unfold memWrite
  cases existsAt s.par a
  · simp
  · simp only [if_true, Except.ok.injEq, true_and]
    exact eq_comm

theorem regionRead_ok {lo hi a : Nat} {s : State} {b : Byte} :
    regionRead lo hi a s = .ok b ↔
      within lo hi a = true ∧ existsAt s.par a = true ∧ b = Memory.read s.mem a := by
  unfold regionRead
  split <;> simp_all [memRead_ok]

theorem regionWrite_ok {lo hi a : Nat} {v : Byte} {s t : State} :
    regionWrite lo hi a v s = .ok t ↔
      within lo hi a = true ∧ existsAt s.par a = true ∧ t = { s with mem := Memory.write s.mem a v } := by
  unfold regionWrite
  split <;> simp_all [memWrite_ok]

/-- A failing region access is BufferRange with the address (20_memory.md R62 to R64). -/
theorem regionRead_error {lo hi a : Nat} {s : State} {f : Trap} (h : regionRead lo hi a s = .error f) :
    f = ⟨.bufferRange, a⟩ := by
  unfold regionRead memRead at h
  split at h
  · split at h <;> simp_all
  · simp only [Except.error.injEq] at h
    exact h.symm

theorem regionWrite_error {lo hi a : Nat} {v : Byte} {s : State} {f : Trap}
    (h : regionWrite lo hi a v s = .error f) : f = ⟨.bufferRange, a⟩ := by
  unfold regionWrite memWrite at h
  split at h
  · split at h <;> simp_all
  · simp only [Except.error.injEq] at h
    exact h.symm

/-! ## DATA -/

/-- What an answered DataWrite did: dropped, started an exchange, or only loaded the shift side
(43_serial_engine.md R171). -/
theorem dataWrite_ok {b : Byte} {s t : State} (h : dataWrite b s = .ok t) :
    (s.xferBusy = true ∧ s.par.writeWhileBusy = .drop ∧ t = s.emit (.dataWr b false)) ∨
    (s.xferBusy = false ∧ s.en = true ∧ s.role = true ∧ t = startExchange (loadShift b s)) ∨
    (s.xferBusy = false ∧ (s.en && s.role) = false ∧ t = loadShift b s) := by
  unfold dataWrite at h
  split at h
  · split at h <;> simp_all
  · split at h <;> simp_all

/-- A DataWrite changes S.tx_shift, STATUS, S.xfer_busy and the trace only. -/
theorem dataWrite_frame {b : Byte} {s t : State} (h : dataWrite b s = .ok t) :
    t = { s with txShift := t.txShift, status := t.status, xferBusy := t.xferBusy, trace := t.trace } := by
  rcases dataWrite_ok h with ⟨_, _, rfl⟩ | ⟨_, _, _, rfl⟩ | ⟨_, _, rfl⟩ <;> rfl

/-- The one fault of a DataWrite (43_serial_engine.md R171). -/
theorem dataWrite_error {b : Byte} {s : State} {f : Trap} (h : dataWrite b s = .error f) :
    s.xferBusy = true ∧ s.par.writeWhileBusy = .fault ∧ f = ⟨.writeWhileBusy, b.toNat⟩ := by
  unfold dataWrite at h
  split at h
  · split at h <;> simp_all
  · split at h <;> simp_all

/-- With no exchange in progress a DataWrite is accepted. -/
theorem dataWrite_idle {b : Byte} {s : State} (h : s.xferBusy = false) :
    dataWrite b s = .ok (if s.en && s.role then startExchange (loadShift b s) else loadShift b s) := by
  simp only [dataWrite, h, Bool.false_eq_true, if_false]
  split <;> rfl

/-- Aborting leaves no exchange and changes only S.xfer_busy and the trace (43_serial_engine.md R176). -/
theorem abortExchange_frame (s : State) :
    abortExchange s = { s with xferBusy := false, trace := (abortExchange s).trace } := by
  unfold abortExchange
  split
  · rfl
  · rename_i h
    have : s.xferBusy = false := by simpa using h
    simp [← this]

/-! ## Async bytes -/

/-- A sent byte: it is read from the transmit region and written to DATA (41_async.md R138). -/
theorem sendByte_ok {a : Nat} {s t : State} (h : sendByte a s = .ok t) :
    within s.ghost.txLo s.ghost.txHi a = true ∧ existsAt s.par a = true ∧
      dataWrite (Memory.read s.mem a) s = .ok t := by
  unfold sendByte at h
  split at h
  · cases h
  · rename_i b hb
    obtain ⟨hw, he, rfl⟩ := regionRead_ok.1 hb
    exact ⟨hw, he, h⟩

/-- A stored byte: DATA is read and S.rx_latch is written to the receive region (41_async.md R139). -/
theorem storeByte_ok {a : Nat} {s t : State} :
    storeByte a s = .ok t ↔
      within s.ghost.rxLo s.ghost.rxHi a = true ∧ existsAt s.par a = true ∧
        t = { dataRead s with mem := Memory.write s.mem a s.rxLatch } := by
  unfold storeByte
  exact regionWrite_ok

/-- What an answered advance leaves: everything but TransferState, DATA's write side, STATUS, S.xfer_busy, the trace
and memory (41_async.md R136 to R141). -/
theorem advance_frame {s t : State} (h : advance s = .ok t) :
    t = { s with
      status := t.status, xfer := t.xfer, txShift := t.txShift, xferBusy := t.xferBusy, trace := t.trace,
      mem := t.mem } := by
  unfold advance at h
  split at h
  · cases h
    rfl
  · unfold advanceTx at h
    split at h
    · cases h
      rfl
    · split at h
      · cases h
      · rename_i hu
        cases h
        rcases dataWrite_ok (sendByte_ok hu).2.2 with ⟨_, _, rfl⟩ | ⟨_, _, _, rfl⟩ | ⟨_, _, rfl⟩ <;> rfl
  · unfold advanceRx at h
    split at h
    · cases h
      rfl
    · split at h
      · cases h
      · rename_i hu
        cases h
        obtain ⟨_, _, rfl⟩ := storeByte_ok.1 hu
        rfl
  · unfold advanceTxrx at h
    split at h
    · split at h
      · cases h
      · rename_i hu
        cases h
        obtain ⟨_, _, rfl⟩ := storeByte_ok.1 hu
        rfl
    · split at h
      · cases h
      · rename_i hu
        split at h
        · cases h
        · rename_i hw
          cases h
          obtain ⟨_, _, rfl⟩ := storeByte_ok.1 hw
          rcases dataWrite_ok (sendByte_ok hu).2.2 with ⟨_, _, rfl⟩ | ⟨_, _, _, rfl⟩ | ⟨_, _, rfl⟩ <;> rfl

/-- The notification adds at most one event (60_exceptions.md R206). -/
theorem notify_ok {s t : State} (h : notify s = .ok t) :
    (s.hook ≠ 0 ∧ t = s.emit (.notify s.hook)) ∨ (s.hook = 0 ∧ s.par.unsetHookFaults = false ∧ t = s) := by
  unfold notify at h
  split at h
  · cases h
    exact .inl ⟨‹_›, rfl⟩
  · split at h
    · cases h
    · cases h
      exact .inr ⟨by simp_all, by simp_all, rfl⟩

/-- An answered interrupt body is an answered advance after the entry, and the notification (60_exceptions.md
R203). -/
theorem interruptBody_ok {s t : State} :
    interruptBody s = .ok t ↔ ∃ u, advance (interruptEntry s) = .ok u ∧ notify u = .ok t := by
  unfold interruptBody interruptReturn
  cases advance (interruptEntry s) with
  | error f => simp
  | ok u => cases hn : notify u <;> simp [hn]

/-! ## Blocking micro-steps -/

/-- What the end of a byte leaves: everything but the blocking engine, TO_COUNT, RESULT, the trace and S.cpc
(40_blocking.md R106). -/
theorem endByte_frame (k : Kind) (s : State) :
    endByte k s = { s with
      blk := (endByte k s).blk, toCount := (endByte k s).toCount, result := (endByte k s).result,
      trace := (endByte k s).trace, cpc := (endByte k s).cpc } := by
  unfold endByte
  simp only []
  split <;> rfl

/-- What an answered micro-step leaves: everything but the blocking engine, TO_COUNT, RESULT, STATUS, DATA's write
side, S.xfer_busy, the trace, S.cpc and memory (40_blocking.md R104 to R106, R110). -/
theorem microStep_frame {k : Kind} {s t : State} (h : microStep k s = .ok t) :
    t = { s with
      status := t.status, result := t.result, toCount := t.toCount, txShift := t.txShift, xferBusy := t.xferBusy,
      blk := t.blk, cpc := t.cpc, trace := t.trace, mem := t.mem } := by
  unfold microStep at h
  split at h
  · unfold startStep at h
    split at h
    · split at h
      · cases h
      · split at h
        · cases h
        · rename_i hu
          cases h
          rcases dataWrite_ok hu with ⟨_, _, rfl⟩ | ⟨_, _, _, rfl⟩ | ⟨_, _, rfl⟩ <;> rfl
    · cases h
      rfl
  · cases h
    unfold waitStep
    split
    · rfl
    · split <;> rfl
  · unfold finishStep at h
    split at h
    · split at h
      · cases h
      · rename_i hu
        cases h
        obtain ⟨_, _, rfl⟩ := regionWrite_ok.1 hu
        unfold endByte
        simp only []
        split <;> rfl
    · cases h
      unfold endByte
      simp only []
      split <;> rfl

/-! ## The step -/

/-- Everything a step that answers a next state did: a chosen move ran, and the model's own fields moved on. -/
theorem step_next {s t : State} :
    step s = .next t ↔ ∃ m u, nextMove s = some m ∧ runMove m s = .next u ∧ t = u.tickOn := by
  unfold step
  cases hm : nextMove s with
  | none => simp
  | some m =>
    cases hr : runMove m s with
    | next u => simp [settleStep, hr, eq_comm]
    | fault f => simp [settleStep, hr]
    | refused f => simp [settleStep, hr]

end Sys2Proof.Machine
end

