-- ==== Sys2Proof/Laws/PerInstr.lean ====
section
/-! SUPPORT. Statements made per command: the byte of every command is one of the fifteen the opcode map lists. -/

namespace Sys2Proof.Laws.EncodeInOpcodeRange

/-- The byte of the command has RSV = 0b0000 and a non-zero opcode (30_encoding.md R81, R82). -/
def Statement (i : Instr) : Prop := fieldRsv (encode i) = 0#4 ∧ fieldOp (encode i) = i.opcode ∧ i.opcode ≠ 0#4

theorem init : Statement .init := ⟨rfl, rfl, by decide⟩

theorem deinit : Statement .deinit := ⟨rfl, rfl, by decide⟩

theorem initCtrlDefault : Statement .initCtrlDefault := ⟨rfl, rfl, by decide⟩

theorem initPeriphDefault : Statement .initPeriphDefault := ⟨rfl, rfl, by decide⟩

theorem tx : Statement .tx := ⟨rfl, rfl, by decide⟩

theorem rx : Statement .rx := ⟨rfl, rfl, by decide⟩

theorem txrx : Statement .txrx := ⟨rfl, rfl, by decide⟩

theorem txAsync : Statement .txAsync := ⟨rfl, rfl, by decide⟩

theorem rxAsync : Statement .rxAsync := ⟨rfl, rfl, by decide⟩

theorem txrxAsync : Statement .txrxAsync := ⟨rfl, rfl, by decide⟩

theorem setHook : Statement .setHook := ⟨rfl, rfl, by decide⟩

theorem irqEnable : Statement .irqEnable := ⟨rfl, rfl, by decide⟩

theorem irqDisable : Statement .irqDisable := ⟨rfl, rfl, by decide⟩

theorem busEnable : Statement .busEnable := ⟨rfl, rfl, by decide⟩

theorem busDisable : Statement .busDisable := ⟨rfl, rfl, by decide⟩

end Sys2Proof.Laws.EncodeInOpcodeRange
end

