-- ==== Sys2Proof/Laws/Run.lean ====
section
/-! SUPPORT. Runs and how they end: the computed run is the run, its first final state is the one `firstFinal` finds,
and from a stuck state the remote party may wait as long as it likes. -/

namespace Sys2Proof.Machine

theorem stepNext_some {s t : State} : stepNext s = some t ↔ step s = .next t := by
  unfold stepNext
  cases step s <;> simp

/-! ## The run from a state -/

theorem isRun_runFrom (s : State) : IsRun (runFrom s) := ⟨rfl, fun _ => rfl⟩

/-- Every run is the run from its first state. -/
theorem IsRun.eq_runFrom {run : Nat → Option State} (h : IsRun run) : ∃ s, run = runFrom s := by
  obtain ⟨s, hs⟩ := Option.isSome_iff_exists.1 h.1
  refine ⟨s, funext fun k => ?_⟩
  induction k with
  | zero => exact hs
  | succ k ih => rw [h.2 k, ih, runFrom]

/-- The run from a state goes on as the run from the next state. -/
theorem runFrom_succ (s : State) (k : Nat) : runFrom s (k + 1) = (stepNext s).bind (fun t => runFrom t k) := by
  induction k with
  | zero => simp [runFrom]
  | succ k ih =>
    rw [runFrom, ih]
    cases stepNext s <;> simp [runFrom]

/-! ## The first final state -/

/-- A run has at most one first final state. -/
theorem FirstFinal.unique {run : Nat → Option State} {j k : Nat} {t u : State} (ht : FirstFinal run j t)
    (hu : FirstFinal run k u) : j = k ∧ t = u := by
  have hjk : j = k := by
    rcases Nat.lt_trichotomy j k with h | h | h
    · exact absurd ht.2.1 (by simp [hu.2.2 j h t ht.1])
    · exact h
    · exact absurd hu.2.1 (by simp [ht.2.2 k h u hu.1])
  subst hjk
  exact ⟨rfl, Option.some.inj (ht.1.symm.trans hu.1)⟩

/-- A final state is the first final state of the run from it. -/
theorem firstFinal_of_final {s t : State} {k : Nat} (h : isFinal s = true) (ht : FirstFinal (runFrom s) k t) :
    k = 0 ∧ t = s :=
  ht.unique ⟨rfl, h, by simp⟩

/-- From a state that is not final, the first final state is that of the run from the next state. -/
theorem firstFinal_of_step {s t : State} {k : Nat} (h : isFinal s = false) :
    FirstFinal (runFrom s) (k + 1) t ↔ ∃ u, stepNext s = some u ∧ FirstFinal (runFrom u) k t := by
  unfold FirstFinal
  simp only [runFrom_succ]
  cases hn : stepNext s with
  | none => simp
  | some u =>
    simp only [Option.bind_some, Option.some.injEq, exists_eq_left']
    refine and_congr_right fun _ => and_congr_right fun _ => ⟨fun hj j hlt v hv => ?_, fun hj j hlt v hv => ?_⟩
    · exact hj (j + 1) (by omega) v (by simp [runFrom_succ, hn, hv])
    · cases j with
      | zero =>
        cases hv
        exact h
      | succ j => exact hj j (by omega) v (by simpa [runFrom_succ, hn] using hv)

/-- `firstFinal` finds the first final state of the run, where it lies within its bound. -/
theorem firstFinal_some {n : Nat} {s t : State} :
    firstFinal n s = some t ↔ ∃ k ≤ n, FirstFinal (runFrom s) k t := by
  induction n generalizing s with
  | zero =>
    simp only [firstFinal, Nat.le_zero, exists_eq_left]
    by_cases h : isFinal s = true
    · simp only [h, if_true, Option.some.injEq]
      exact ⟨fun e => ⟨congrArg some e, e ▸ h, by simp⟩, fun e => Option.some.inj e.1⟩
    · simp only [h, if_false, reduceCtorEq, false_iff]
      intro e
      cases e.1
      exact h e.2.1
  | succ n ih =>
    by_cases h : isFinal s = true
    · simp only [firstFinal, h, if_true, Option.some.injEq]
      refine ⟨fun e => ⟨0, by omega, congrArg some e, e ▸ h, by simp⟩, fun ⟨k, _, hk⟩ => ?_⟩
      exact (firstFinal_of_final h hk).2.symm
    · have hf : isFinal s = false := by simpa using h
      simp only [firstFinal, hf, Bool.false_eq_true, if_false, Option.bind_eq_some_iff, ih]
      constructor
      · rintro ⟨u, hu, k, hk, hfin⟩
        exact ⟨k + 1, by omega, (firstFinal_of_step hf).2 ⟨u, hu, hfin⟩⟩
      · rintro ⟨k, hk, hfin⟩
        cases k with
        | zero =>
          cases hfin.1
          exact absurd hfin.2.1 h
        | succ k =>
          obtain ⟨u, hu, hfu⟩ := (firstFinal_of_step hf).1 hfin
          exact ⟨u, hu, k, by omega, hfu⟩

/-- A run's observation is the one `runObservation` answers for some bound. -/
theorem observes_iff {s : State} {o : Observation} :
    Observes (runFrom s) o ↔ ∃ n, runObservation n s = some o := by
  unfold Observes runObservation
  simp only [Option.map_eq_some_iff, firstFinal_some]
  constructor
  · rintro ⟨k, t, ht, ho⟩
    exact ⟨k, t, ⟨k, le_rfl, ht⟩, ho⟩
  · rintro ⟨n, t, ⟨k, _, ht⟩, ho⟩
    exact ⟨k, t, ht, ho⟩

/-! ## Stuck states -/

/-- A stuck state is not final. -/
theorem isFinal_of_isStuck {s : State} (h : isStuck s = true) : isFinal s = false := by
  unfold isStuck at h
  cases hf : isFinal s <;> simp_all

/-- The run from a stuck state in which the remote party waits `n` times reaches no final state: a claim that every run
ends is false of it (70_reset_and_hazards.md R265, 43_serial_engine.md R174). -/
theorem firstFinal_of_isStuck (n : Nat) (s : State) (h : isStuck s = true) :
    firstFinal n { s with sched := List.replicate n .peerWait } = none := by
  induction n generalizing s with
  | zero =>
    have hf : isFinal { s with sched := [] } = false := isFinal_of_isStuck h
    simp [firstFinal, hf]
  | succ n ih =>
    have hf : isFinal { s with sched := List.replicate (n + 1) .peerWait } = false := isFinal_of_isStuck h
    simp only [firstFinal, hf, Bool.false_eq_true, if_false, Option.bind_eq_none_iff]
    intro t ht
    rw [stepNext_some] at ht
    by_cases he : enabled s .peerWait = true
    · have hw : enabled { s with sched := List.replicate (n + 1) .peerWait } .peerWait = true := he
      have hm : nextMove { s with sched := List.replicate (n + 1) .peerWait } = some .peerWait := by
        simp only [nextMove, List.replicate_succ] at hw ⊢
        simp [hw]
      simp only [step, hm, runMove, peerWaitStep, settleStep, Host.Outcome.next.injEq] at ht
      subst ht
      exact ih { s with tick := s.tick + 1 } h
    · have hall : enabledMoves { s with sched := List.replicate (n + 1) .peerWait } = [] := by
        have hs : enabled s .peerStart = false := by simpa [enabled] using he
        have hd : enabled s (.exchangeDone (Config.peerByte s.tick)) = enabled s (.exchangeDone 0x00#8) := rfl
        have hw : enabled s .peerWait = false := by simpa using he
        unfold isStuck at h
        simp only [Bool.and_eq_true, Bool.not_eq_true'] at h
        rw [enabledMoves, List.filter_eq_nil_iff]
        intro m hmem
        have : enabled s m = false := by
          simp only [List.mem_cons, List.not_mem_nil, or_false] at hmem
          rcases hmem with rfl | rfl | rfl | rfl | rfl
          · exact h.1.1.1
          · exact h.1.1.2
          · exact hd.trans h.1.2
          · exact hs
          · exact hw
        exact Bool.not_eq_true _ ▸ this
      have hm : nextMove { s with sched := List.replicate (n + 1) .peerWait } = none := by
        have hw : enabled { s with sched := List.replicate (n + 1) .peerWait } .peerWait = false := by
          have hs : enabled s .peerWait = false := by simpa using he
          exact hs
        simp only [nextMove, List.replicate_succ, freeMove] at hw hall ⊢
        simp [hw, hall]
      simp [step, hm] at ht

end Sys2Proof.Machine
end

