-- ==== Sys2Proof/WellFormed.lean ====
section
/-! DEFINITION. Which commands, host operations and launch parameters are well-formed, each as a Bool. -/

namespace Sys2Proof

/-- A command has no operand field (30_encoding.md R84), so there is none that could be out of range. -/
def Instr.wf : Instr → Bool
  | .init | .deinit | .initCtrlDefault | .initPeriphDefault => true
  | .tx | .rx | .txrx => true
  | .txAsync | .rxAsync | .txrxAsync => true
  | .setHook | .irqEnable | .irqDisable | .busEnable | .busDisable => true

/-- The address of an HMW or HMR is an address of P_ADDR_BITS bits (30_encoding.md R80, 20_memory.md R60);
register numbers and values are any naturals. An ill-formed operation still has a meaning: BufferRange (log 11). -/
def HostOp.wf (p : Params) : HostOp → Bool
  | .hw _ _ | .hr _ => true
  | .hmw a _ | .hmr a => decide (a < 2 ^ p.addrBits)

/-- A region of P_MEM lies in the address space (20_memory.md R60, R61). -/
def Region.wf (p : Params) (r : Region) : Bool := decide (r.base + r.size ≤ 2 ^ p.addrBits)

/-- Every region of P_MEM lies in the address space. -/
def Params.wf (p : Params) : Bool := p.regions.all (Region.wf p)

end Sys2Proof
end

