-- ==== Sys2Proof/Tests/Slice0.lean ====
section
/-! SUPPORT. The model's own tests: well-formedness, decoding, single steps whose expected results are the spec's
(95_test_vectors.md, or the rule named), and a witness for the hypotheses of every statement. -/

namespace Sys2Proof.Tests

open Sys2Proof Sys2Proof.Machine

/-! ## The states of 95_test_vectors.md section 0 -/

/-- The parameters of every vector unless stated. -/
def params : Params :=
  { addrPred := 15, sizePred := 15, timeoutPred := 15, hookPred := 7, regions := [⟨0, 0x10000⟩],
    writeWhileBusy := .drop, strictBlockingIe := true, unsetHookFaults := false, ctrlDefaultOpen := 0x10#8,
    periphDefaultOpen := 0x00#8 }

/-- S0, with the draws 0xE0 and 0xD0. -/
def s0 : State := { State.reset with par := params, txShift := 0xE0#8, rxLatch := 0xD0#8 }

/-- Cc: controller role, enabled. -/
def cc : State := { s0 with ctrl := 0x50#8 }

/-- Cp: peripheral role, enabled. -/
def cp : State := { s0 with ctrl := 0x40#8 }

/-- The caller memory of the vectors: three bytes at 0x0100. -/
def buffer : List Host.Cell := [(0x100, 0x41#8), (0x101, 0x42#8), (0x102, 0x43#8)]

/-- Argument registers with a transmit base, a receive base, a size and a timeout. -/
def args (a b n t : Nat) : Args := { tx := a, rx := b, size := n, timeout := t, cfg := 0x10#8, hook := 7 }

/-- Cc with the buffer and arguments. -/
def ready (a b n t : Nat) : State := { cc with mem := buffer, arg := args a b n t }

/-- A blocking command of kind `k` in phase `p` at byte `i` of `n`, with the timer at `t`. -/
def blocking (k : Kind) (p : Phase) (i n t : Nat) : State :=
  { ready 0x100 0x200 n 5 with
    ops := [.hw 3 0x05]
    blk :=
      { kind := some k, phase := p, n := n, i := i, t := t, timeout := 5, txb := 0x100, rxb := 0x200, late := 0 } }

/-- An async transfer in mode `m` with `n` bytes remaining, with its cursors one past the start. -/
def armed (m : Mode) (n : Nat) : State :=
  { ready 0x100 0x200 3 0 with
    ctrl := 0xD0#8
    status := 0x80#8
    rxLatch := 0x51#8
    hook := 7
    xfer := { mode := m, txCur := 0x101, rxCur := 0x200, remaining := n }
    ghost := { txLo := 0x100, txHi := 0x101 + n, rxLo := 0x200, rxHi := 0x200 + n + 1 } }

/-- The next state, where the outcome is one. -/
def after (r : Host.Outcome State Fault Refusal) : Option State :=
  match r with
  | .next t => some t
  | .fault _ => none
  | .refused _ => none

/-- The state a part of a step answers, where it raises no fault. -/
def answered (r : Except Trap State) : Option State :=
  match r with
  | .ok t => some t
  | .error _ => none

/-! ## Well-formedness refuses an ill-formed term for each check -/

theorem test_wf_commands : Instr.wf .txAsync = true := by decide

theorem test_wf_refuses_read_outside : HostOp.wf params (.hmr 0x10000) = false := by decide

theorem test_wf_refuses_write_outside : HostOp.wf params (.hmw 0x10000 0x00#8) = false := by decide

theorem test_wf_accepts_last_address : HostOp.wf params (.hmw 0xFFFF 0x00#8) = true := by decide

theorem test_wf_refuses_region : Region.wf params ⟨0xFFFF, 2⟩ = false := by decide

theorem test_wf_refuses_params : Params.wf { params with regions := [⟨0, 1⟩, ⟨0, 0x10001⟩] } = false := by decide

theorem test_wf_accepts_params : Params.wf params = true := by decide

theorem test_memory_wf_refuses_order : Memory.wf [(2, 0x01#8), (1, 0x01#8)] = false := by decide

theorem test_memory_wf_refuses_default : Memory.wf [(1, 0x00#8)] = false := by decide

theorem test_memory_write_removes : Memory.write buffer 0x101 0x00#8 = [(0x100, 0x41#8), (0x102, 0x43#8)] := by decide

/-! ## Decoding: words written out from 30_encoding.md R81 and R83 -/

theorem test_decode_control :
    [0b00000001#8, 0b00000010#8, 0b00000011#8, 0b00000100#8].map decode =
      [.ok .init, .ok .deinit, .ok .initCtrlDefault, .ok .initPeriphDefault] := by decide

theorem test_decode_blocking :
    [0b00000101#8, 0b00000110#8, 0b00000111#8].map decode = [.ok .tx, .ok .rx, .ok .txrx] := by decide

theorem test_decode_async :
    [0b00001000#8, 0b00001001#8, 0b00001010#8].map decode = [.ok .txAsync, .ok .rxAsync, .ok .txrxAsync] := by decide

theorem test_decode_enables :
    [0b00001011#8, 0b00001100#8, 0b00001101#8, 0b00001110#8, 0b00001111#8].map decode =
      [.ok .setHook, .ok .irqEnable, .ok .irqDisable, .ok .busEnable, .ok .busDisable] := by decide

/-- 30_encoding.md R89: 0x00 is no command, and neither is any value with a bit of 7:4 set. -/
theorem test_decode_rejects :
    [0x00#8, 0x10#8, 0x15#8, 0x8F#8].map decode =
      [.error .reservedOpcode, .error .reservedBits, .error .reservedBits, .error .reservedBits] := by decide

theorem test_encode : encode .txrxAsync = 0b00001010#8 := by decide

theorem test_table_word : decodeTableWord 8 0x0B = some .setHook ∧ decodeTableWord 8 0x1B = none := by decide

/-- Every command, fetched right after reset, answers a next state. -/
theorem test_first_step_completes :
    ([1, 2, 3, 4, 5, 6, 7, 8, 9, 10, 11, 12, 13, 14, 15].map
      fun w => (after (step (State.reset.withFetchWord 8 w))).isSome) = List.replicate 15 true := by decide

/-- 30_encoding.md R89: CMD value 0x00 raises IllegalCommand. -/
theorem test_first_step_illegal :
    (after (step (State.reset.withFetchWord 8 0))).map (fun t => t.fault) = some 0x01#8 := by decide

/-! ## Assembler text (30_encoding.md R90, R91) -/

theorem test_line_pseudo :
    readLine "TXRX tx=0x0100, rx=0x0300, n=2, to=10 ; V9" =
      some [.hw 4 0x100, .hw 5 0x300, .hw 6 2, .hw 7 10, .hw 3 0x07] := by decide

theorem test_line_bare : readLine "RX_ASYNC" = some [.hw 3 0x09] := by decide

theorem test_line_operations :
    readStream ["HW ARG_CFG, 0x2D", "HR FAULT", "HMW 12, 0xFF", "HMR 0x0c", "; end"] =
      some [.hw 8 0x2D, .hr 16, .hmw 12 0xFF#8, .hmr 12] := by decide

theorem test_line_rejects : readLine "HMW 12, 256" = none ∧ readLine "TX tx=1" = none := by decide

/-! ## Configuration and control: K1 to K12, V7 -/

/-- V7: INIT cfg=0x2D gives CTRL = 0x6D and STATUS = 0x00. -/
theorem test_init :
    (after (exec .init { s0 with arg := { s0.arg with cfg := 0x2D#8 } })).map (fun t => (t.ctrl, t.status)) =
      some (0x6D#8, 0x00#8) := by decide

/-- K2: INIT cfg=0x7F gives CTRL = 0x7F and STATUS = 0x01, selector 0b111. -/
theorem test_init_divider :
    (after (exec .init { s0 with arg := { s0.arg with cfg := 0x7F#8 } })).map
      (fun t => (t.ctrl, t.status, t.dividerSelector)) = some (0x7F#8, 0x01#8, 0b111#3) := by decide

/-- K3: INIT cfg=0x80 raises IllegalConfig with info 0x80 and CTRL stays 0x50. -/
theorem test_init_illegal :
    (after (exec .init { cc with arg := { cc.arg with cfg := 0x80#8 } })).map (fun t => (t.ctrl, t.fault, t.trace)) =
      some (0x50#8, 0x03#8, [.faultEv .illegalConfig 0x80]) := by decide

/-- K4: DEINIT aborts the exchange and leaves TransferState. -/
theorem test_deinit :
    (after (exec .deinit { armed .tx 2 with xferBusy := true })).map
      (fun t => (t.ctrl, t.status, t.xferBusy, t.xfer.mode, t.trace)) =
      some (0x00#8, 0x00#8, false, .tx, [.xferAbort, .done .deinit .ok]) := by decide

/-- K11: with P_DEFAULT_CONTROLLER_CFG = 0x10 CTRL becomes 0x50. -/
theorem test_init_ctrl_default : (after (exec .initCtrlDefault s0)).map (fun t => t.ctrl) = some 0x50#8 := by decide

/-- K12: with P_DEFAULT_PERIPHERAL_CFG = 0x00 CTRL becomes 0x40. -/
theorem test_init_periph_default : (after (exec .initPeriphDefault s0)).map (fun t => t.ctrl) = some 0x40#8 := by decide

/-- K9: SET_HOOK h=7. -/
theorem test_set_hook :
    (after (exec .setHook { s0 with arg := { s0.arg with hook := 7 } })).map (fun t => (t.hook, t.cpc)) =
      some (7, 1) := by decide

/-- K5: IRQ_ENABLE from Cc gives CTRL = 0xD0. -/
theorem test_irq_enable : (after (exec .irqEnable cc)).map (fun t => t.ctrl) = some 0xD0#8 := by decide

/-- K6: IRQ_DISABLE from CTRL = 0xD0 gives 0x50 and leaves TC. -/
theorem test_irq_disable :
    (after (exec .irqDisable (armed .tx 1))).map (fun t => (t.ctrl, t.status)) = some (0x50#8, 0x80#8) := by decide

/-- K7: BUS_ENABLE from CTRL = 0x10 gives 0x50, and no exchange starts. -/
theorem test_bus_enable :
    (after (exec .busEnable { s0 with ctrl := 0x10#8 })).map (fun t => (t.ctrl, t.xferBusy)) =
      some (0x50#8, false) := by decide

/-- K8: BUS_DISABLE during an exchange aborts it and leaves TC and S.rx_latch. -/
theorem test_bus_disable :
    (after (exec .busDisable { cc with xferBusy := true, status := 0x80#8 })).map
      (fun t => (t.ctrl, t.status, t.rxLatch, t.xferBusy, t.trace)) =
      some (0x10#8, 0x80#8, 0xD0#8, false, [.xferAbort, .done .busDisable .ok]) := by decide

/-! ## Blocking transfers: D1, D2, D3, D7, V1, V8, V9 -/

/-- D1: TX of size 0 completes in its issue step. -/
theorem test_tx_zero :
    (after (exec .tx (ready 0x100 0 0 7))).map (fun t => (t.result, t.toCount, t.cpc, t.blk.kind, t.trace)) =
      some (0x00#8, 0, 1, none, [.done .tx .ok]) := by decide

/-- D7 (e): TX at 0xFFFF of 2 bytes raises BufferRange. -/
theorem test_tx_range :
    (after (exec .tx (ready 0xFFFF 0 2 7))).map (fun t => (t.fault, t.trace)) =
      some (0x04#8, [.faultEv .bufferRange 0xFFFF]) := by decide

/-- D7 (b): RX while a TX_ASYNC is active raises BlockingWhileAsyncActive with info 0x06. -/
theorem test_rx_active :
    (after (exec .rx (armed .tx 2))).map (fun t => (t.fault, t.trace)) =
      some (0x08#8, [.faultEv .blockingWhileAsyncActive 0x06]) := by decide

/-- R103: RX latches its base, size and timeout. -/
theorem test_rx_issue :
    (after (exec .rx (ready 0 0x200 2 5))).map (fun t => (t.blk.kind, t.blk.rxb, t.blk.n, t.blk.timeout, t.cpc)) =
      some (some .rx, 0x200, 2, 5, 0) := by decide

/-- D7 (f): the last two addresses are accepted, and TXRX latches both bases. -/
theorem test_txrx_issue :
    (after (exec .txrx (ready 0xFFFE 0x300 2 10))).map (fun t => (t.blk.kind, t.blk.txb, t.blk.rxb, t.fault)) =
      some (some .txrx, 0xFFFE, 0x300, 0x00#8) := by decide

/-- D7 (a): with IE = 1 TXRX raises BlockingWithIrqEnabled. -/
theorem test_txrx_masked :
    (after (exec .txrx { ready 0x100 0x300 2 10 with ctrl := 0xD0#8 })).map (fun t => t.fault) =
      some 0x07#8 := by decide

/-- V1: Start writes the byte, an exchange starts, and the timer is loaded. -/
theorem test_start :
    (after (foregroundStep (blocking .tx .start 1 3 0))).map (fun t => (t.trace, t.blk.t, t.blk.phase, t.xferBusy)) =
      some ([.dataWr 0x42#8 true, .xferStart 0x42#8], 5, .wait, true) := by decide

/-- D3: Start during an exchange drops the write and leaves S.tx_shift. -/
theorem test_start_dropped :
    (after (foregroundStep { blocking .tx .start 2 3 0 with xferBusy := true })).map
      (fun t => (t.trace, t.txShift, t.blk.phase)) = some ([.dataWr 0x43#8 false], 0xE0#8, .wait) := by decide

/-- D2: with T = 0 and TC = 0 the Wait times the byte out. -/
theorem test_wait_timeout :
    (after (foregroundStep (blocking .tx .wait 0 1 0))).map (fun t => (t.trace, t.blk.late, t.blk.phase)) =
      some ([.timedOut 0], 1, .finish) := by decide

/-- V8: Finish stores S.rx_latch at the slot and clears TC. -/
theorem test_finish :
    (after (foregroundStep { blocking .rx .finish 1 2 3 with status := 0x80#8, rxLatch := 0x22#8 })).map
      (fun t => (Memory.read t.mem 0x201, t.tc, t.result, t.blk.kind, t.cpc)) =
      some (0x22#8, false, 0x00#8, none, 1) := by decide

/-! ## Async transfers: V3, V5, V6, A2, A3, A4 -/

/-- V3 step 1: TX_ASYNC writes the first byte and gives (Tx, 0x0101, 0, 2). -/
theorem test_tx_async :
    (after (exec .txAsync (ready 0x100 0 3 0))).map (fun t => (t.xfer, t.txShift, t.result)) =
      some ({ mode := .tx, txCur := 0x101, rxCur := 0, remaining := 2 }, 0x41#8, 0x00#8) := by decide

/-- V3 step 2: a second TX_ASYNC is ignored. -/
theorem test_tx_async_busy :
    (after (exec .txAsync (armed .tx 2))).map (fun t => (t.xfer.remaining, t.result, t.trace)) =
      some (2, 0x02#8, [.done .txAsync .busyIgnored]) := by decide

/-- A2: RX_ASYNC of size 0 at 0x0200 gives (Rx, 0x0200, 0), SEQ_STATUS = 0x0A. -/
theorem test_rx_async_zero :
    (after (exec .rxAsync (ready 0 0x200 0 0))).map (fun t => (t.xfer.rxCur, t.seqStatus)) =
      some (0x200, 0x0A#8) := by decide

/-- A3: RX_ASYNC at 0xFFFF of 1 byte is accepted. -/
theorem test_rx_async_last :
    (after (exec .rxAsync (ready 0 0xFFFF 1 0))).map (fun t => (t.xfer.remaining, t.fault)) =
      some (1, 0x00#8) := by decide

/-- A4: TXRX_ASYNC of one byte gives (TxRx, 0x0101, 0x0300, 0). -/
theorem test_txrx_async :
    (after (exec .txrxAsync (ready 0x100 0x300 1 0))).map (fun t => (t.xfer, t.trace)) =
      some
        ({ mode := .txrx, txCur := 0x101, rxCur := 0x300, remaining := 0 },
          [.dataWr 0x41#8 true, .xferStart 0x41#8, .done .txrxAsync .ok]) := by decide

/-- A2: TXRX_ASYNC of size 0 changes nothing but RESULT. -/
theorem test_txrx_async_zero :
    (after (exec .txrxAsync (ready 0x100 0x300 0 0))).map (fun t => (t.xfer.mode, t.result, t.xferBusy)) =
      some (.idle, 0x00#8, false) := by decide

/-- R140's example: the write, then the read back of S.rx_latch, and both cursors move. -/
theorem test_advance_txrx :
    (after (interruptStep (armed .txrx 1))).map (fun t => (t.xfer, Memory.read t.mem 0x200, t.txShift)) =
      some ({ mode := .txrx, txCur := 0x102, rxCur := 0x201, remaining := 0 }, 0x51#8, 0x42#8) := by decide

/-- R141's example: the final read, and the mode returns to Idle. -/
theorem test_advance_final :
    (after (interruptStep (armed .txrx 0))).map (fun t => (t.xfer.mode, Memory.read t.mem 0x200, t.xfer.rxCur)) =
      some (.idle, 0x51#8, 0x200) := by decide

/-- R139: the last received byte is stored and the mode returns to Idle. -/
theorem test_advance_rx :
    (after (interruptStep (armed .rx 1))).map (fun t => (t.xfer.mode, Memory.read t.mem 0x200, t.xfer.rxCur)) =
      some (.idle, 0x51#8, 0x201) := by decide

/-- A1: the events of an interrupt in mode Tx, in order. -/
theorem test_advance_tx :
    (after (interruptStep (armed .tx 2))).map (fun t => t.trace) =
      some [.irqTaken .tx, .dataWr 0x42#8 true, .xferStart 0x42#8, .notify 7] := by decide

/-- S8: with no hook and P_UNSET_HOOK_FAULTS the advance is undone. -/
theorem test_hook_unset :
    (after (interruptStep { armed .tx 1 with hook := 0, par := { params with unsetHookFaults := true } })).map
      (fun t => (t.xfer.remaining, t.txShift, t.fault, t.trace)) =
      some (1, 0xE0#8, 0x09#8, [.faultEv .hookUnset 0]) := by decide

/-! ## Host operations and the bus: K13, K15, K16, S4 -/

/-- K13: HW(4, 0x10005) stores 0x0005. -/
theorem test_host_write : (after (hostWrite 4 0x10005 s0)).map (fun t => t.arg.tx) = some 0x0005 := by decide

/-- K15: HR(17) raises IllegalRegisterAccess with info 17. -/
theorem test_host_read_illegal :
    (after (hostRead 17 s0)).map (fun t => (t.fault, t.trace)) =
      some (0x02#8, [.faultEv .illegalRegisterAccess 17]) := by decide

/-- K16: HR(1) with TC = 1 reads 0x80 and leaves TC. -/
theorem test_host_read_status :
    (after (hostRead 1 { s0 with status := 0x80#8 })).map (fun t => (t.trace, t.tc)) =
      some ([.hostRd 1 0x80], true) := by decide

/-- S4: a completion overwrites S.rx_latch with no flag. -/
theorem test_exchange_done :
    (after (exchangeDoneStep 0x02#8 { cc with xferBusy := true, status := 0x80#8, rxLatch := 0x01#8 })).map
      (fun t => (t.rxLatch, t.tc, t.xferBusy)) = some (0x02#8, true, false) := by decide

/-- R177: with DORD = 0 the first bit received becomes bit 7, with DORD = 1 bit 0. -/
theorem test_wire_in :
    [0x50#8, 0x70#8].map
      (fun c => wireIn { s0 with ctrl := c } [true, false, false, false, false, false, false, false]) =
      [0x80#8, 0x01#8] := by decide

/-! ## How a run ends: R265 -/

/-- A disabled block that has run its one operation is final: the observation is taken there, and not before. -/
theorem test_run_observation :
    runObservation 0 { s0 with ops := [.hr 16], sched := [.foreground] } = none ∧
      (runObservation 1 { s0 with ops := [.hr 16], sched := [.foreground] }).map (fun o => (o.trace, o.fault)) =
        some ([.hostRd 16 0], 0x00#8) := by decide

/-- Cp at the end of its stream is final, though the remote party may clock it: the observation is that of Cp. -/
theorem test_run_first_final :
    firstFinal 3 { cp with sched := [.peerStart, .exchangeDone 1#8] } =
      some { cp with sched := [.peerStart, .exchangeDone 1#8] } := by decide

/-- R265: an RX_ASYNC no one clocks is stuck, and a faulted state is not final. -/
theorem test_stuck :
    isStuck { cp with xfer := { mode := .rx, txCur := 0, rxCur := 0x200, remaining := 1 } } = true ∧
      isStuck cp = false ∧ isFinal (raiseFault ⟨.hookUnset, 0⟩ cp) = false := by decide

/-! ## Witnesses: each states the hypotheses of the statement it is named after, clause by clause -/

/-- A state whose schedule gives the foreground the next step, with a write of `v` to CMD next. -/
def fetching (v : Nat) : State := { ready 0x100 0x200 3 5 with ops := [.hw 3 v], sched := [.foreground] }

theorem witness_DecodeIsTotal :
    ((BitVec.ofNat 8 0xF5).extractLsb' 4 4 ≠ 0#4) ∧
    ((BitVec.ofNat 8 0x100).extractLsb' 4 4 = 0#4 ∧ (BitVec.ofNat 8 0x100).extractLsb' 0 4 = 0#4) ∧
    ((BitVec.ofNat 8 0x0F).extractLsb' 4 4 = 0#4 ∧ (BitVec.ofNat 8 0x0F).extractLsb' 0 4 ≠ 0#4 ∧
      Instr.opcode .busDisable = (BitVec.ofNat 8 0x0F).extractLsb' 0 4) := by decide

theorem witness_DecodeEncodeAgree : decode 0x0F#8 = .ok .busDisable := by decide

theorem witness_StepRunsDecodedCommand :
    nextMove (fetching 0x105) = some .foreground ∧ (fetching 0x105).blk.kind = none ∧
      (fetching 0x105).ops[(fetching 0x105).cpc]? = some (.hw 3 0x105) ∧ decode (BitVec.ofNat 8 0x105) = .ok .tx ∧
      (after (exec .tx (fetching 0x105))).isSome = true := by decide

theorem witness_ForegroundRunsAlone :
    (fetching 0x05).fault = 0x00#8 ∧ (fetching 0x05).blk.kind = none ∧
      (fetching 0x05).ops[(fetching 0x05).cpc]? = some (.hw 3 0x05) ∧ (fetching 0x05).irqPending = false ∧
      (fetching 0x05).xferBusy = false ∧ peerEnabled (fetching 0x05) = false := by decide

theorem witness_SchedulingIsFreeAmongEnabled :
    nextMove (fetching 0x05) = some .foreground ∧ enabled (armed .tx 2) .interrupt = true ∧
      enabled { cp with xferBusy := true } (.exchangeDone 0xFF#8) = true ∧ enabled cp .peerStart = true := by decide

theorem witness_FaultUndoesItsStep :
    (raiseFault ⟨.hookUnset, 0⟩ s0).fault ≠ 0x00#8 ∧
      (after (step (fetching 0x00))).map (fun t => t.fault) = some 0x01#8 := by decide

theorem witness_FaultUndoesItsStep_next : ∃ s t, step s = .next t ∧ t.fault ≠ 0x00#8 :=
  ⟨fetching 0x00, _, rfl, by decide⟩

/-- A step that answers a next state: LaunchArgumentsNeverChange, CommandPointerAdvances, TraceIsOnlyObserved,
OnlyTheAdvanceWritesTransfer, FlagSetOnlyByCompletion. -/
theorem witness_step_next : ∃ s t, step s = .next t ∧ t.fault = 0x00#8 := ⟨fetching 0x0B, _, rfl, rfl⟩

theorem witness_CommandPointerAdvances :
    (after (step (fetching 0x0B))).map (fun t => t.cpc) = some 1 ∧
      (after (step (fetching 0x05))).map (fun t => t.cpc) = some 0 := by decide

theorem witness_ResetMeetsInvariant : IsLaunch s0 := ⟨by decide, rfl⟩

theorem coherent_s0 : Coherent s0 := ⟨by decide, by decide, by decide, by decide, by decide, by decide⟩

theorem coherent_fetching : Coherent (fetching 0x05) :=
  ⟨by decide, by decide, by decide, by decide, by decide, by decide⟩

theorem coherent_blocking : Coherent (blocking .txrx .finish 2 3 5) :=
  ⟨by decide, by decide, by decide, by decide, by decide, by decide⟩

theorem coherent_armed : Coherent (armed .txrx 2) := ⟨by decide, by decide, by decide, by decide, by decide, by decide⟩

theorem witness_StepKeepsInvariant : ∃ s t, Coherent s ∧ step s = .next t :=
  ⟨fetching 0x05, _, coherent_fetching, rfl⟩

/-- A parameter set with a hole at 0x0104 to 0x01FF and from 0x0210. -/
def holed : Params := { params with regions := [⟨0, 0x104⟩, ⟨0x200, 0x10⟩] }

theorem witness_AsyncAccessesStayInRegion :
    Coherent (armed .txrx 2) ∧ (armed .txrx 2).fault = 0x00#8 ∧ HookAllowed (armed .txrx 2) ∧
      ((armed .txrx 2).xfer.mode.sends = true → ∀ a, (armed .txrx 2).ghost.txLo ≤ a →
        a < (armed .txrx 2).ghost.txHi → existsAt (armed .txrx 2).par a = true) ∧
      ((armed .txrx 2).xfer.mode.receives = true → ∀ a, (armed .txrx 2).ghost.rxLo ≤ a →
        a < (armed .txrx 2).ghost.rxHi → existsAt (armed .txrx 2).par a = true) ∧
      ((armed .txrx 2).xferBusy = false ∨ (armed .txrx 2).par.writeWhileBusy = .drop) := by
  refine ⟨coherent_armed, rfl, by decide, ?_, ?_, by decide⟩
  · intro _ a h1 h2
    replace h1 : 0x100 ≤ a := h1
    replace h2 : a < 0x103 := h2
    interval_cases a <;> decide
  · intro _ a h1 h2
    replace h1 : 0x200 ≤ a := h1
    replace h2 : a < 0x203 := h2
    interval_cases a <;> decide

/-- Mode Tx with a stale receive region, of an earlier RX_ASYNC, that lies partly outside P_MEM. -/
def staleRx : State :=
  { armed .tx 2 with par := holed, ghost := { txLo := 0x100, txHi := 0x103, rxLo := 0x20E, rxHi := 0x212 } }

theorem witness_AsyncAccessesStayInRegion_stale :
    Coherent staleRx ∧ staleRx.fault = 0x00#8 ∧ HookAllowed staleRx ∧
      (staleRx.xfer.mode.sends = true → ∀ a, staleRx.ghost.txLo ≤ a → a < staleRx.ghost.txHi →
        existsAt staleRx.par a = true) ∧
      (staleRx.xfer.mode.receives = true → ∀ a, staleRx.ghost.rxLo ≤ a → a < staleRx.ghost.rxHi →
        existsAt staleRx.par a = true) ∧
      (staleRx.xferBusy = false ∨ staleRx.par.writeWhileBusy = .drop) ∧
      existsAt staleRx.par 0x211 = false := by
  refine ⟨⟨by decide, by decide, by decide, by decide, by decide, by decide⟩, rfl, by decide, ?_, ?_, by decide,
    by decide⟩
  · intro _ a h1 h2
    replace h1 : 0x100 ≤ a := h1
    replace h2 : a < 0x103 := h2
    interval_cases a <;> decide
  · intro h
    exact absurd h (by decide)

theorem witness_InitAppliesConfig :
    bit { s0 with arg := { s0.arg with cfg := 0x80#8 } }.arg.cfg 7 = true ∧
      bit { s0 with arg := { s0.arg with cfg := 0x7F#8 } }.arg.cfg 7 = false := by decide

theorem witness_ReinitialiseIsIdempotent : bit 0x7F#8 7 = false := by decide

theorem witness_IrqCommandsWriteIe : { cc with status := 0x80#8 }.tc = true := by decide

theorem witness_ControlCommandsFrame :
    ∃ (i : Instr) (s t : State),
      i ∈ [.init, .deinit, .initCtrlDefault, .initPeriphDefault, .setHook, .irqEnable, .irqDisable, .busEnable,
        .busDisable] ∧ exec i s = .next t ∧ i ≠ .setHook := ⟨.busDisable, cc, _, by decide, rfl, by decide⟩

/-- Every clause of BlockingIssue, at boundary values: an active transfer, a draining one, IE = 1, size 0, the first
region that does not fit, for each buffer, and the last one that does. -/
theorem witness_BlockingIssue :
    ((armed .tx 0).xfer.mode ≠ .idle ∧ (armed .idle 1).xfer.remaining ≠ 0) ∧
    (cc.xfer.mode = .idle ∧ cc.xfer.remaining = 0) ∧
    (cc.par.strictBlockingIe = true ∧ { cc with ctrl := 0xD0#8 }.ie = true ∧ cc.ie = false) ∧
    ((ready 0xFFFF 0xFFFF 0 0).arg.size = 0) ∧
    (0 < (ready 0xFFFF 0 2 0).arg.size ∧
      2 ^ params.addrBits < (ready 0xFFFF 0 2 0).arg.tx + (ready 0xFFFF 0 2 0).arg.size) ∧
    ((ready 0xFFFE 0xFFFF 2 0).arg.tx + (ready 0xFFFE 0xFFFF 2 0).arg.size ≤ 2 ^ params.addrBits ∧
      2 ^ params.addrBits < (ready 0xFFFE 0xFFFF 2 0).arg.rx + (ready 0xFFFE 0xFFFF 2 0).arg.size) ∧
    ((ready 0xFFFE 0xFFFE 2 0).arg.tx + (ready 0xFFFE 0xFFFE 2 0).arg.size ≤ 2 ^ params.addrBits ∧
      (ready 0xFFFE 0xFFFE 2 0).arg.rx + (ready 0xFFFE 0xFFFE 2 0).arg.size ≤ 2 ^ params.addrBits) := by decide

theorem witness_StartLoadsByteAndTimer :
    (let s := blocking .rx .start 0 1 0
     s.blk.kind = some .rx ∧ s.blk.phase = .start) ∧
    (let s := { blocking .tx .start 4 5 0 with par := holed }
     s.blk.kind = some .tx ∧ s.blk.phase = .start ∧ s.blk.i < s.blk.n ∧
       existsAt s.par (s.blk.txb + s.blk.i) = false) ∧
    (let s := { blocking .txrx .start 3 4 0 with par := holed }
     s.blk.kind = some .txrx ∧ s.blk.phase = .start ∧ s.blk.i < s.blk.n ∧
       existsAt s.par (s.blk.txb + s.blk.i) = true ∧ s.xferBusy = false) ∧
    (let s := { blocking .tx .start 0 1 0 with xferBusy := true }
     existsAt s.par (s.blk.txb + s.blk.i) = true ∧ s.xferBusy = true ∧ s.par.writeWhileBusy = .drop) ∧
    (let s := { blocking .tx .start 0 1 0 with xferBusy := true, par := { params with writeWhileBusy := .fault } }
     existsAt s.par (s.blk.txb + s.blk.i) = true ∧ s.xferBusy = true ∧ s.par.writeWhileBusy = .fault) := by decide

theorem witness_WaitTestsFlagThenBudget :
    (let s := { blocking .tx .wait 0 1 0 with status := 0x80#8 }
     s.blk.kind = some .tx ∧ s.blk.phase = .wait ∧ s.tc = true) ∧
    (let s := blocking .tx .wait 0 1 0
     s.blk.kind = some .tx ∧ s.blk.phase = .wait ∧ s.tc = false ∧ s.blk.t = 0) ∧
    (let s := blocking .rx .wait 0 1 1
     s.blk.kind = some .rx ∧ s.blk.phase = .wait ∧ s.tc = false ∧ s.blk.t ≠ 0) := by decide

theorem witness_FinishStoresAndAdvances :
    (let s := { blocking .rx .finish 0x10 0x11 0 with par := holed }
     s.blk.kind = some .rx ∧ s.blk.phase = .finish ∧ s.blk.i < s.blk.n ∧ s.blk.n < 2 ^ s.par.sizeBits ∧
       existsAt s.par (s.blk.rxb + s.blk.i) = false) ∧
    (let s := blocking .tx .finish 0 2 0
     s.blk.kind = some .tx ∧ s.blk.phase = .finish ∧ s.blk.i < s.blk.n ∧ s.blk.n < 2 ^ s.par.sizeBits ∧
       s.blk.i + 1 ≠ s.blk.n) ∧
    (let s := { blocking .txrx .finish 0xF 0x10 0 with par := holed }
     s.blk.kind = some .txrx ∧ s.blk.phase = .finish ∧ s.blk.i < s.blk.n ∧ s.blk.n < 2 ^ s.par.sizeBits ∧
       existsAt s.par (s.blk.rxb + s.blk.i) = true ∧ s.blk.i + 1 = s.blk.n) := by decide

theorem witness_BlockingAccessCount :
    ∃ (w r : Nat) (k : Kind) (m : Move) (s t : State),
      Coherent s ∧ s.fault = 0x00#8 ∧ s.blk.kind = some k ∧ enabled s m = true ∧ runMove m s = .next t ∧
        t.fault = 0x00#8 ∧ w + writesSoFar k s.blk = 3 ∧ r + readsSoFar k s.blk = 2 :=
  ⟨0, 0, .txrx, .foreground, blocking .txrx .finish 2 3 5, _, coherent_blocking, rfl, rfl, by decide, rfl, rfl,
    by decide, by decide⟩

/-- The counts of the state above, with a trace of three writes and two reads. -/
theorem witness_BlockingAccessCount_trace :
    (let s := { blocking .txrx .finish 2 3 5 with
        trace := [.dataWr 1#8 true, .dataRd 1#8, .dataWr 2#8 true, .dataRd 2#8, .dataWr 3#8 false] }
     (dataWrites s.trace).length = 0 + writesSoFar .txrx s.blk ∧
       (dataReads s.trace).length = 0 + readsSoFar .txrx s.blk) := by decide

theorem witness_WaitEndsWithinBudget :
    (blocking .tx .wait 0 1 2).tc = false ∧ (blocking .tx .wait 0 1 2).blk.phase = .wait := by decide

theorem witness_BlockingFrame :
    ∃ (k : Kind) (s t : State), s.blk.kind = some k ∧ foregroundStep s = .next t ∧ Memory.wf s.mem = true ∧
      s.blk.phase ≠ .finish := ⟨.tx, blocking .tx .wait 0 1 2, _, rfl, rfl, by decide, by decide⟩

theorem witness_BusyArmingIsIgnored :
    Instr.txrxAsync ∈ [Instr.txAsync, .rxAsync, .txrxAsync] ∧ (armed .rx 1).xfer.remaining ≠ 0 := by decide

theorem witness_ZeroLengthArming :
    ((ready 0 0 0 0).arg.size = 0 ∧ (ready 0 0 0 0).xfer.remaining = 0) ∧
      ({ armed .tx 1 with arg := args 0 0 0 0 }.arg.size = 0 ∧ (armed .tx 1).xfer.remaining ≠ 0) := by decide

/-- The BufferRange clauses of TxrxAsyncArms: neither region fits, only the transmit region does not, only the receive
region does not, and both fit but the first byte does not exist. -/
theorem witness_TxrxAsyncArms :
    (let s := ready 0xFFFF 0xFFFF 2 0
     s.xfer.remaining = 0 ∧ 0 < s.arg.size ∧ 2 ^ s.par.addrBits < s.arg.tx + s.arg.size ∧
       2 ^ s.par.addrBits < s.arg.rx + s.arg.size) ∧
    (let s := ready 0xFFFF 0xFFFE 2 0
     2 ^ s.par.addrBits < s.arg.tx + s.arg.size ∧ s.arg.rx + s.arg.size ≤ 2 ^ s.par.addrBits) ∧
    (let s := ready 0xFFFE 0xFFFF 2 0
     s.arg.tx + s.arg.size ≤ 2 ^ s.par.addrBits ∧ 2 ^ s.par.addrBits < s.arg.rx + s.arg.size) ∧
    (let s := { ready 0x104 0xFFFF 1 0 with par := holed }
     s.xfer.remaining = 0 ∧ 0 < s.arg.size ∧ s.arg.tx + s.arg.size ≤ 2 ^ s.par.addrBits ∧
       s.arg.rx + s.arg.size ≤ 2 ^ s.par.addrBits ∧ existsAt s.par s.arg.tx = false) := by decide

/-- TxAsyncArms and TxrxAsyncArms: a region that does not fit, a byte that does not exist, and an accepted arming at
the end of the address space, with the bus free and busy under both policies. -/
theorem witness_TxAsyncArms :
    (let s := ready 0xFFFF 0x200 2 0
     s.xfer.remaining = 0 ∧ 0 < s.arg.size ∧ 2 ^ s.par.addrBits < s.arg.tx + s.arg.size) ∧
    (let s := { ready 0x104 0x200 1 0 with par := holed }
     s.xfer.remaining = 0 ∧ 0 < s.arg.size ∧ existsAt s.par s.arg.tx = false) ∧
    (let s := ready 0xFFFE 0xFFFE 2 0
     s.arg.tx + s.arg.size ≤ 2 ^ s.par.addrBits ∧ s.arg.rx + s.arg.size ≤ 2 ^ s.par.addrBits ∧
       existsAt s.par s.arg.tx = true ∧ s.xferBusy = false) ∧
    (let s := { ready 0x100 0xFFFF 2 0 with xferBusy := true }
     2 ^ s.par.addrBits < s.arg.rx + s.arg.size ∧ s.xferBusy = true ∧ s.par.writeWhileBusy = .drop) ∧
    (let s := { ready 0x100 0x200 3 0 with xferBusy := true, par := { params with writeWhileBusy := .fault } }
     s.xferBusy = true ∧ s.par.writeWhileBusy = .fault ∧ existsAt s.par s.arg.tx = true) := by decide

theorem witness_RxAsyncArms :
    (let s := ready 0 0xFFFF 2 0
     s.xfer.remaining = 0 ∧ 0 < s.arg.size ∧ 2 ^ s.par.addrBits < s.arg.rx + s.arg.size) ∧
    (let s := ready 0 0xFFFF 1 0
     s.xfer.remaining = 0 ∧ s.arg.rx + s.arg.size ≤ 2 ^ s.par.addrBits) ∧
    ((ready 0 0xFFFF 0 0).arg.size = 0) := by decide

theorem witness_AsyncArmingFrame :
    ∃ (i : Instr) (s t : State), i ∈ [Instr.txAsync, .rxAsync, .txrxAsync] ∧ exec i s = .next t ∧ i = .rxAsync :=
  ⟨.rxAsync, ready 0 0x200 2 0, _, by decide, rfl, rfl⟩

/-- AdvanceInModeTx: nothing remaining, an address outside P_MEM, a cursor outside its region, and an accepted byte. -/
theorem witness_AdvanceInModeTx :
    ((armed .tx 0).xfer.mode = .tx ∧ (armed .tx 0).xfer.remaining = 0) ∧
    (let s := { armed .tx 3 with par := { params with regions := [⟨0, 0x101⟩] } }
     s.xfer.mode = .tx ∧ 0 < s.xfer.remaining ∧ existsAt s.par s.xfer.txCur = false) ∧
    (let s := { armed .tx 1 with ghost := { txLo := 0x100, txHi := 0x101, rxLo := 0, rxHi := 0 } }
     0 < s.xfer.remaining ∧ s.ghost.txHi ≤ s.xfer.txCur) ∧
    (let s := armed .tx 1
     existsAt s.par s.xfer.txCur = true ∧ s.ghost.txLo ≤ s.xfer.txCur ∧ s.xfer.txCur < s.ghost.txHi ∧
       s.xferBusy = false) ∧
    (let s := { armed .tx 1 with xferBusy := true, par := { params with writeWhileBusy := .fault } }
     existsAt s.par s.xfer.txCur = true ∧ s.xferBusy = true ∧ s.par.writeWhileBusy = .fault) := by decide

theorem witness_AdvanceInModeRx :
    ((armed .rx 0).xfer.mode = .rx ∧ (armed .rx 0).xfer.remaining = 0) ∧
    (let s := { armed .rx 1 with par := { params with regions := [⟨0, 0x200⟩] } }
     0 < s.xfer.remaining ∧ existsAt s.par s.xfer.rxCur = false) ∧
    (let s := armed .rx 1
     s.xfer.mode = .rx ∧ 0 < s.xfer.remaining ∧ existsAt s.par s.xfer.rxCur = true ∧ s.ghost.rxLo ≤ s.xfer.rxCur ∧
       s.xfer.rxCur < s.ghost.rxHi ∧ s.xfer.remaining = 1) := by decide

theorem witness_AdvanceInModeTxrx :
    (let s := armed .txrx 0
     s.xfer.mode = .txrx ∧ existsAt s.par s.xfer.rxCur = true ∧ s.ghost.rxLo ≤ s.xfer.rxCur ∧
       s.xfer.rxCur < s.ghost.rxHi ∧ s.xfer.remaining = 0) ∧
    (let s := armed .txrx 1
     s.xfer.mode = .txrx ∧ existsAt s.par s.xfer.rxCur = true ∧ s.ghost.rxLo ≤ s.xfer.rxCur ∧
       s.xfer.rxCur < s.ghost.rxHi ∧ 0 < s.xfer.remaining ∧ existsAt s.par s.xfer.txCur = true ∧
       s.ghost.txLo ≤ s.xfer.txCur ∧ s.xfer.txCur < s.ghost.txHi ∧ s.xferBusy = false) ∧
    (let s := { armed .txrx 1 with xferBusy := true, par := { params with writeWhileBusy := .fault } }
     s.xferBusy = true ∧ s.par.writeWhileBusy = .fault) ∧
    (let s := { armed .txrx 0 with par := { params with regions := [⟨0, 0x200⟩] } }
     s.xfer.remaining = 0 ∧ existsAt s.par s.xfer.rxCur = false) ∧
    (let s := { armed .txrx 1 with ghost := { txLo := 0x102, txHi := 0x103, rxLo := 0x200, rxHi := 0x202 } }
     0 < s.xfer.remaining ∧ s.xfer.txCur < s.ghost.txLo) ∧
    (let s := { armed .txrx 1 with xferBusy := true, par := { params with regions := [⟨0x101, 0xFF⟩] } }
     0 < s.xfer.remaining ∧ existsAt s.par s.xfer.txCur = true ∧ s.par.writeWhileBusy = .drop ∧
       existsAt s.par s.xfer.rxCur = false) := by decide

/-- AdvanceStateMachine: each row of R142 has an advance that raises no fault. -/
theorem witness_AdvanceStateMachine :
    [armed .idle 0, armed .tx 1, armed .tx 0, armed .rx 2, armed .rx 1, armed .rx 0, armed .txrx 1, armed .txrx 0].all
      (fun s => (answered (advance s)).isSome) = true := by decide

/-- The hypotheses of AsyncTransmitLaw, AsyncReceiveLaw and AsyncTransmitReceiveLaw, at the end of the address
space. -/
theorem witness_AsyncTransmitReceiveLaw :
    (let s := ready 0xFFFE 0xFFFE 2 0
     s.xfer.mode = .idle ∧ s.xfer.remaining = 0 ∧ 0 < s.arg.size ∧ [0xAA#8, 0xBB#8].length = s.arg.size ∧
       s.arg.tx + s.arg.size ≤ 2 ^ s.par.addrBits ∧ s.arg.rx + s.arg.size ≤ 2 ^ s.par.addrBits ∧
       BufferExists s.par s.arg.tx s.arg.size ∧ BufferExists s.par s.arg.rx s.arg.size ∧
       (s.xferBusy = false ∨ s.par.writeWhileBusy = .drop) ∧
       Memory.wf s.mem = true ∧ HookAllowed s) := by decide

theorem witness_OnlyTheAdvanceWritesTransfer :
    ∃ s t : State, 0 < s.xfer.remaining ∧ step s = .next t ∧ nextMove s ≠ some .interrupt :=
  ⟨{ armed .tx 2 with status := 0x00#8, xferBusy := true, sched := [.exchangeDone 1#8] }, _, by decide, rfl, by decide⟩

theorem witness_InterruptAcknowledgesAndNotifies :
    ∃ s t : State, s.fault = 0x00#8 ∧ interruptStep s = .next t ∧ t.fault = 0x00#8 := ⟨armed .rx 2, _, rfl, rfl, rfl⟩

theorem witness_NotifyFollowsTheAdvance :
    (∃ s t, advance (interruptEntry s) = .ok t ∧ s.hook ≠ 0) ∧
      (∃ s t, advance (interruptEntry s) = .ok t ∧ s.hook = 0 ∧ s.par.unsetHookFaults = true) ∧
      ∃ s t, advance (interruptEntry s) = .ok t ∧ s.hook = 0 ∧ s.par.unsetHookFaults = false :=
  ⟨⟨armed .rx 2, _, rfl, by decide⟩, ⟨{ s0 with par := { params with unsetHookFaults := true } }, _, rfl, rfl, rfl⟩,
    ⟨s0, _, rfl, rfl, rfl⟩⟩

theorem witness_InterruptWhileIdle :
    s0.xfer.mode = .idle ∧ HookAllowed s0 ∧ (armed .idle 0).xfer.mode = .idle ∧ HookAllowed (armed .idle 0) := by decide

theorem witness_InterruptFrame :
    ∃ s t : State, interruptStep s = .next t ∧ Memory.wf s.mem = true ∧ s.xfer.mode = .tx :=
  ⟨armed .tx 2, _, rfl, by decide, rfl⟩

theorem witness_DataRegisterPrimitives :
    cc.xferBusy = false ∧ { cc with xferBusy := true }.xferBusy = true ∧ cc.par.writeWhileBusy = .drop ∧
      { params with writeWhileBusy := .fault }.writeWhileBusy = .fault := by decide

theorem witness_ExchangeStartsOnlyBy :
    (∃ s t : State, runMove .foreground s = .next t ∧ s.xferBusy = false ∧ t.xferBusy = true ∧
      enabled s .foreground = true) ∧
      ∃ s t : State, runMove .peerStart s = .next t ∧ s.xferBusy = false ∧ t.xferBusy = true ∧
        enabled s .peerStart = true :=
  ⟨⟨fetching 0x08, _, rfl, rfl, rfl, by decide⟩, ⟨cp, _, rfl, rfl, rfl, by decide⟩⟩

theorem witness_FlagSetOnlyByCompletion :
    (∃ s t : State, step s = .next t ∧ s.tc = false ∧ t.tc = true) ∧
      ∃ s t : State, step s = .next t ∧ s.tc = true ∧ t.tc = false :=
  ⟨⟨{ cc with xferBusy := true, sched := [.exchangeDone 1#8] }, _, rfl, by decide, by decide⟩,
    ⟨{ armed .rx 2 with sched := [.interrupt] }, _, rfl, by decide, by decide⟩⟩

theorem witness_WireOrderFollowsDord :
    bit cc.ctrl 5 = false ∧ bit { cc with ctrl := 0x70#8 }.ctrl 5 = true ∧
      [true, false, false, false, false, false, false, false].length = 8 := by decide

theorem witness_HostWriteRegisters :
    decode (BitVec.ofNat 8 0x101) = .ok .init ∧ decode (BitVec.ofNat 8 0x100) = .error .reservedOpcode ∧
      (2 < 3 ∧ 9 < 10) := by decide

theorem witness_HostReadRegisters : (2 = 2 ∧ 3 = 3 ∧ 17 ≤ 17) ∧ (16, s0.fault.toNat) ∈ [(16, s0.fault.toNat)] := by
  decide

theorem witness_SeqStatusFields : (armed .tx 0).xfer.mode = .tx ∧ (armed .rx 0).xfer.mode = .rx ∧
    (armed .txrx 0).xfer.mode = .txrx ∧ s0.xfer.mode = .idle ∧ 5 ≤ 5 := by decide

/-- HostMemoryAccess: both races, both holes, and both accepted accesses, at the ends of the regions. -/
theorem witness_HostMemoryAccess :
    Memory.wf (armed .txrx 2).mem = true ∧
    (existsAt params 0x100 = true ∧ WriteRace (armed .tx 2) 0x100 ∧ ¬ ReadRace (armed .tx 2) 0x100) ∧
    (existsAt params 0x202 = true ∧ ReadRace (armed .txrx 2) 0x202 ∧ ¬ ReadRace (armed .txrx 2) 0x203) ∧
    (existsAt holed 0x104 = false ∧ ¬ WriteRace { armed .tx 2 with par := holed } 0x104) ∧
    (existsAt holed 0x210 = false ∧ ¬ ReadRace { armed .tx 2 with par := holed } 0x210) ∧
    (existsAt params 0x10000 = false ∧ ¬ ReadRace (armed .tx 2) 0x10000) ∧
    (existsAt params 0xFFFF = true ∧ ¬ WriteRace (armed .txrx 2) 0xFFFF) := by decide

end Sys2Proof.Tests
end

section
/-! SUPPORT. Scheduling: which move is next, and what decides it (00_scope.md R4, 42_control.md R164). -/

namespace Sys2Proof.Machine

/-- The free choice picks among the enabled moves. -/
theorem mem_enabledMoves_of_freeMove {s : State} {m : Move} (h : freeMove s = some m) : m ∈ enabledMoves s := by
  unfold freeMove at h
  split at h
  · cases h
  · next he =>
    cases h
    simp [he]
  · next he =>
    rw [he]
    exact List.mem_of_getElem? h

/-- The free choice finds a move where an enabled one is left. -/
theorem freeMove_isSome {s : State} (h : enabledMoves s ≠ []) : (freeMove s).isSome = true := by
  unfold freeMove
  split
  · contradiction
  · rfl
  · rw [List.getElem?_eq_getElem (Nat.mod_lt _ (by simp))]
    rfl

/-- The byte of a completion does not decide whether the exchange can complete (43_serial_engine.md R175). -/
theorem enabled_exchangeDone (s : State) (b c : Byte) :
    enabled s (.exchangeDone b) = enabled s (.exchangeDone c) := rfl

/-- An agent that has a step offers a move to the free choice. -/
theorem enabledMoves_ne_nil {s : State} {m : Move} (h : enabled s m = true) : enabledMoves s ≠ [] := by
  have offered : ∀ m', enabled s m' = true →
      m' ∈ [.foreground, .interrupt, .exchangeDone (Config.peerByte s.tick), .peerStart, .peerWait] →
      enabledMoves s ≠ [] := fun _ he hm => List.ne_nil_of_mem (List.mem_filter.2 ⟨hm, he⟩)
  cases m with
  | exchangeDone b =>
    exact offered _ ((enabled_exchangeDone s b (Config.peerByte s.tick)).symm.trans h) (by simp)
  | foreground | interrupt | peerStart | peerWait => exact offered _ h (by simp)

/-- The next move is the enabled head of the schedule or the free choice. -/
theorem nextMove_cases {s : State} {m : Move} (h : nextMove s = some m) :
    enabled s m = true ∨ freeMove s = some m := by
  unfold nextMove at h
  split at h
  · exact .inr h
  · split at h
    · next he =>
      cases h
      exact .inl he
    · exact .inr h

theorem enabled_of_nextMove {s : State} {m : Move} (h : nextMove s = some m) : enabled s m = true := by
  rcases nextMove_cases h with he | hf
  · exact he
  · exact List.of_mem_filter (mem_enabledMoves_of_freeMove hf)

/-- The schedule is not read by `enabled`, so an enabled move put at its head is next. -/
theorem nextMove_scheduled {s : State} {m : Move} (h : enabled s m = true) :
    nextMove { s with sched := m :: s.sched } = some m := if_pos h

theorem nextMove_isSome {s : State} {m : Move} (h : enabled s m = true) : (nextMove s).isSome = true := by
  have hfree := freeMove_isSome (enabledMoves_ne_nil h)
  unfold nextMove
  split
  · exact hfree
  · split
    · rfl
    · exact hfree

/-- Settles O8: the three facts above, one for each clause. -/
theorem schedulingIsFreeAmongEnabled : Obligations.SchedulingIsFreeAmongEnabled := by
  unfold Obligations.SchedulingIsFreeAmongEnabled
  intro s
  refine ⟨fun _ => enabled_of_nextMove, fun _ => nextMove_scheduled, ?_⟩
  rintro ⟨m, hm⟩
  exact Option.isSome_iff_exists.1 (nextMove_isSome hm)

end Sys2Proof.Machine
end

section
/-! SUPPORT. Inversion of the parts of a step: what an answered arming command, advance, blocking issue and
micro-step did, said once each (41_async.md R124 to R141, 40_blocking.md R103 to R106). -/

namespace Sys2Proof.Machine

/-! ## The async transfer -/

/-- TransferState and its ghost regions replaced, everything else as it was (10_state.md R38 to R43). -/
def State.setTransfer (s : State) (x : Transfer) (g : Ghost) : State := { s with xfer := x, ghost := g }

@[simp] theorem State.setTransfer_par (s : State) (x : Transfer) (g : Ghost) : (s.setTransfer x g).par = s.par := rfl
@[simp] theorem State.setTransfer_xfer (s : State) (x : Transfer) (g : Ghost) : (s.setTransfer x g).xfer = x := rfl
@[simp] theorem State.setTransfer_ghost (s : State) (x : Transfer) (g : Ghost) : (s.setTransfer x g).ghost = g := rfl
@[simp] theorem State.setTransfer_mem (s : State) (x : Transfer) (g : Ghost) : (s.setTransfer x g).mem = s.mem := rfl
@[simp] theorem State.setTransfer_xferBusy (s : State) (x : Transfer) (g : Ghost) :
    (s.setTransfer x g).xferBusy = s.xferBusy := rfl
@[simp] theorem State.setTransfer_en (s : State) (x : Transfer) (g : Ghost) : (s.setTransfer x g).en = s.en := rfl
@[simp] theorem State.setTransfer_role (s : State) (x : Transfer) (g : Ghost) :
    (s.setTransfer x g).role = s.role := rfl

/-- A DataWrite neither reads nor writes TransferState. -/
theorem dataWrite_setTransfer (b : Byte) (s : State) (x : Transfer) (g : Ghost) :
    dataWrite b (s.setTransfer x g) = (dataWrite b s).map (·.setTransfer x g) := by
  cases hbusy : s.xferBusy with
  | true =>
    cases hpol : s.par.writeWhileBusy with
    | drop | fault =>
      simp only [dataWrite, State.setTransfer_xferBusy, State.setTransfer_par, hbusy, hpol, if_true]
      rfl
  | false =>
    cases hon : s.en && s.role with
    | true | false =>
      simp only [dataWrite, State.setTransfer_xferBusy, State.setTransfer_en, State.setTransfer_role, hbusy, hon,
        Bool.false_eq_true, if_false, if_true]
      rfl

/-- A DataWrite keeps the parts of the state the laws of TransferState and of the blocking engine speak of. -/
theorem dataWrite_keeps {b : Byte} {s t : State} (h : dataWrite b s = .ok t) :
    t.par = s.par ∧ t.xfer = s.xfer ∧ t.ghost = s.ghost ∧ t.blk = s.blk ∧ t.cpc = s.cpc ∧ t.ops = s.ops := by
  rcases dataWrite_ok h with ⟨-, -, rfl⟩ | ⟨-, -, -, rfl⟩ | ⟨-, -, rfl⟩ <;> exact ⟨rfl, rfl, rfl, rfl, rfl, rfl⟩

/-- A byte sent with TransferState replaced is a DataWrite, and the replacement after it. -/
theorem sendByte_setTransfer_ok {a : Nat} {s t : State} {x : Transfer} {g : Ghost}
    (h : sendByte a (s.setTransfer x g) = .ok t) :
    existsAt s.par a = true ∧ ∃ u, dataWrite (Memory.read s.mem a) s = .ok u ∧ t = u.setTransfer x g := by
  obtain ⟨-, he, hd⟩ := sendByte_ok h
  rw [dataWrite_setTransfer, State.setTransfer_mem] at hd
  cases hu : dataWrite (Memory.read s.mem a) s with
  | error f => simp [hu, Except.map] at hd
  | ok u => exact ⟨he, u, rfl, by simpa [hu, Except.map, eq_comm] using hd⟩

theorem completeArming_ok {op : Instr} {r : Except Trap State} {t : State} (h : completeArming op r = .ok t) :
    ∃ u, r = .ok u ∧ t = u.complete op .ok := by
  cases r with
  | error f => cases h
  | ok u =>
    cases h
    exact ⟨u, rfl, rfl⟩

theorem armTx_ok {a n : Nat} {s t : State} (h : armTx a n s = .ok t) :
    a + n ≤ 2 ^ s.par.addrBits ∧ existsAt s.par a = true ∧ ∃ u, dataWrite (Memory.read s.mem a) s = .ok u ∧
      t = u.setTransfer { s.xfer with mode := .tx, txCur := cursorNext s.par a, remaining := n - 1 }
        { s.ghost with txLo := a, txHi := a + n } := by
  unfold armTx at h
  split at h
  · cases h
  · next hfit =>
    split at h
    · cases h
    · next hu =>
      cases h
      obtain ⟨he, u, hd, rfl⟩ := sendByte_setTransfer_ok hu
      exact ⟨by simpa [regionFits] using hfit, he, u, hd, rfl⟩

theorem armRx_ok {b n : Nat} {s t : State} (h : armRx b n s = .ok t) :
    (0 < n → b + n ≤ 2 ^ s.par.addrBits) ∧
      t = s.setTransfer { s.xfer with mode := .rx, rxCur := b, remaining := n }
        { s.ghost with rxLo := b, rxHi := b + n } := by
  unfold armRx at h
  split at h
  · cases h
  · next hfit =>
    cases h
    exact ⟨by simpa [regionFits] using hfit, rfl⟩

theorem armTxrx_ok {a b n : Nat} {s t : State} (h : armTxrx a b n s = .ok t) :
    a + n ≤ 2 ^ s.par.addrBits ∧ b + n ≤ 2 ^ s.par.addrBits ∧ existsAt s.par a = true ∧
      ∃ u, dataWrite (Memory.read s.mem a) s = .ok u ∧
      t = u.setTransfer { mode := .txrx, txCur := cursorNext s.par a, rxCur := b, remaining := n - 1 }
        { txLo := a, txHi := a + n, rxLo := b, rxHi := b + n } := by
  unfold armTxrx at h
  split at h
  · cases h
  · next hfitTx =>
    split at h
    · cases h
    · next hfitRx =>
      split at h
      · cases h
      · next hu =>
        cases h
        obtain ⟨he, u, hd, rfl⟩ := sendByte_setTransfer_ok hu
        exact ⟨by simpa [regionFits] using hfitTx, by simpa [regionFits] using hfitRx, he, u, hd, rfl⟩

/-- The advance in mode Tx: the drain to Idle, or the next byte sent (41_async.md R138). -/
theorem advanceTx_ok {s t : State} (h : advanceTx s = .ok t) :
    (s.xfer.remaining = 0 ∧ t = toIdle s) ∨
    (s.xfer.remaining ≠ 0 ∧ ∃ u, sendByte s.xfer.txCur s = .ok u ∧
      t = u.setTransfer
        { u.xfer with txCur := cursorNext s.par s.xfer.txCur, remaining := s.xfer.remaining - 1 } u.ghost) := by
  unfold advanceTx at h
  split at h
  · next hr =>
    cases h
    exact .inl ⟨hr, rfl⟩
  · next hr =>
    split at h
    · cases h
    · next hu =>
      cases h
      exact .inr ⟨hr, _, hu, rfl⟩

/-- The advance in mode Rx: the drain to Idle, or the next byte stored (41_async.md R139). -/
theorem advanceRx_ok {s t : State} (h : advanceRx s = .ok t) :
    (s.xfer.remaining = 0 ∧ t = toIdle s) ∨
    (s.xfer.remaining ≠ 0 ∧ ∃ u, storeByte s.xfer.rxCur s = .ok u ∧
      t = u.setTransfer
        { u.xfer with
          mode := if s.xfer.remaining - 1 = 0 then .idle else u.xfer.mode
          rxCur := cursorNext s.par s.xfer.rxCur
          remaining := s.xfer.remaining - 1 } u.ghost) := by
  unfold advanceRx at h
  split at h
  · next hr =>
    cases h
    exact .inl ⟨hr, rfl⟩
  · next hr =>
    split at h
    · cases h
    · next hu =>
      cases h
      exact .inr ⟨hr, _, hu, rfl⟩

/-- The advance in mode TxRx: the final read and the drain, or a byte sent and one stored (41_async.md R140, R141). -/
theorem advanceTxrx_ok {s t : State} (h : advanceTxrx s = .ok t) :
    (s.xfer.remaining = 0 ∧ ∃ u, storeByte s.xfer.rxCur s = .ok u ∧ t = toIdle u) ∨
    (s.xfer.remaining ≠ 0 ∧ ∃ u v, sendByte s.xfer.txCur s = .ok u ∧ storeByte u.xfer.rxCur u = .ok v ∧
      t = v.setTransfer
        { v.xfer with
          txCur := cursorNext s.par s.xfer.txCur
          rxCur := cursorNext s.par s.xfer.rxCur
          remaining := s.xfer.remaining - 1 } v.ghost) := by
  unfold advanceTxrx at h
  split at h
  · next hr =>
    split at h
    · cases h
    · next hu =>
      cases h
      exact .inl ⟨hr, _, hu, rfl⟩
  · next hr =>
    split at h
    · cases h
    · next hu =>
      split at h
      · cases h
      · next hv =>
        cases h
        exact .inr ⟨hr, _, _, hu, hv, rfl⟩

/-! ## Blocking commands -/

/-- An answered issue: a command of size 0 completes at once, any other latches its operands; no async transfer is
active and the buffers its kind uses fit (40_blocking.md R103). -/
theorem issueBlocking_ok {k : Kind} {s t : State} (h : issueBlocking k s = .ok t) :
    (s.arg.size = 0 ∧ t = { s with toCount := 0 }.complete k.instr .ok) ∨
    (s.arg.size ≠ 0 ∧ (s.xfer.mode = .idle ∧ s.xfer.remaining = 0 ∧ (s.par.strictBlockingIe = true → s.ie = false)) ∧
      (k.sends = true → s.arg.tx + s.arg.size ≤ 2 ^ s.par.addrBits) ∧
      (k.receives = true → s.arg.rx + s.arg.size ≤ 2 ^ s.par.addrBits) ∧
      t = { s with blk := latchBlocking k s.arg s.blk }) := by
  unfold issueBlocking at h
  split at h
  · cases h
  · next hidle =>
    split at h
    · cases h
    · next hstrict =>
      split at h
      · next hsize =>
        cases h
        exact .inl ⟨hsize, rfl⟩
      · next hsize =>
        split at h
        · cases h
        · next hfitTx =>
          split at h
          · cases h
          · next hfitRx =>
            cases h
            obtain ⟨hmode, hrem⟩ : s.xfer.mode = .idle ∧ s.xfer.remaining = 0 := by simpa using hidle
            exact .inr ⟨hsize, ⟨hmode, hrem, by simpa using hstrict⟩, by simpa [regionFits] using hfitTx,
              by simpa [regionFits] using hfitRx, rfl⟩

/-- An answered Start: the byte, where the kind sends one, is written to DATA, and the wait begins
(40_blocking.md R105). -/
theorem startStep_ok {k : Kind} {s t : State} (h : startStep k s = .ok t) :
    (k.sends = true ∧ ∃ b u, regionRead s.blk.txb (s.blk.txb + s.blk.n) (indexed s.blk.txb s.blk.i) s = .ok b ∧
      dataWrite b s = .ok u ∧ t = beginWait u) ∨
    (k.sends = false ∧ t = beginWait s) := by
  unfold startStep at h
  split at h
  · next hk =>
    split at h
    · cases h
    · next hb =>
      split at h
      · cases h
      · next hu =>
        cases h
        exact .inl ⟨hk, _, _, hb, hu, rfl⟩
  · next hk =>
    cases h
    exact .inr ⟨by simpa using hk, rfl⟩

/-- An answered Finish: the byte, where the kind receives one, is stored at its slot, and the byte ends
(40_blocking.md R106). -/
theorem finishStep_ok {k : Kind} {s t : State} (h : finishStep k s = .ok t) :
    (k.receives = true ∧ ∃ u, regionWrite s.blk.rxb (s.blk.rxb + s.blk.n) (indexed s.blk.rxb s.blk.i) s.rxLatch
      (dataRead s) = .ok u ∧ t = endByte k u) ∨
    (k.receives = false ∧ t = endByte k s) := by
  unfold finishStep at h
  split at h
  · next hk =>
    split at h
    · cases h
    · next hu =>
      cases h
      exact .inl ⟨hk, _, hu, rfl⟩
  · next hk =>
    cases h
    exact .inr ⟨by simpa using hk, rfl⟩

end Sys2Proof.Machine
end

section
/-! SUPPORT. The invariant `Coherent`: which updates of the state keep it, one lemma for each (10_state.md,
41_async.md R142 and R148, 40_blocking.md R108). -/

namespace Sys2Proof.Machine

/-! ## Fields of parametric width (00_scope.md R7) -/

theorem truncTo_lt (w v : Nat) : truncTo w v < 2 ^ w := Nat.mod_lt _ (Nat.two_pow_pos w)

theorem incr_lt (w v : Nat) : incr w v < 2 ^ w := truncTo_lt w (v + 1)

theorem incr_of_lt {w v : Nat} (h : v + 1 < 2 ^ w) : incr w v = v + 1 := Nat.mod_eq_of_lt h

theorem cursorNext_lt (p : Params) (cur : Nat) : cursorNext p cur < 2 ^ p.addrBits := incr_lt _ _

theorem cursorNext_of_lt {p : Params} {cur : Nat} (h : cur + 1 < 2 ^ p.addrBits) :
    cursorNext p cur = cur + 1 := incr_of_lt h

/-- The cursor moves with the count: with bytes left after an access it stays that many below the end of the region
(41_async.md R148). -/
theorem cursorNext_region {p : Params} {lo cur n hi : Nat} (hlo : lo ≤ cur) (hsum : cur + n = hi)
    (hhi : hi ≤ 2 ^ p.addrBits) (hleft : 1 < n) :
    lo ≤ cursorNext p cur ∧ cursorNext p cur + (n - 1) = hi := by
  rw [cursorNext_of_lt (by omega)]
  omega

/-- The argument registers hold values of their widths (10_state.md R25 to R30). -/
def ArgsFit (p : Params) (a : Args) : Prop :=
  a.tx < 2 ^ p.addrBits ∧ a.rx < 2 ^ p.addrBits ∧ a.size < 2 ^ p.sizeBits ∧ a.timeout < 2 ^ p.timeoutBits ∧
    a.hook < 2 ^ p.hookBits

/-- The cursors and the count of TransferState hold values of their widths (10_state.md R39 to R41). -/
def TransferFits (p : Params) (x : Transfer) : Prop :=
  x.txCur < 2 ^ p.addrBits ∧ x.rxCur < 2 ^ p.addrBits ∧ x.remaining < 2 ^ p.sizeBits

/-- The fields of the blocking engine hold values of their widths (10_state.md R48). -/
def BlockingFits (p : Params) (b : Blocking) : Prop :=
  b.n < 2 ^ p.sizeBits ∧ b.i < 2 ^ p.sizeBits ∧ b.late < 2 ^ p.sizeBits ∧ b.t < 2 ^ p.timeoutBits ∧
    b.timeout < 2 ^ p.timeoutBits ∧ b.txb < 2 ^ p.addrBits ∧ b.rxb < 2 ^ p.addrBits

section
variable {s : State} (h : Coherent s)
include h

theorem Coherent.argsFit : ArgsFit s.par s.arg := by
  obtain ⟨⟨harg, -⟩, -⟩ := h
  exact harg

theorem Coherent.transferFits : TransferFits s.par s.xfer := by
  obtain ⟨⟨-, -, hx, -⟩, -⟩ := h
  exact hx

theorem Coherent.blockingFits : BlockingFits s.par s.blk := by
  obtain ⟨⟨-, -, -, hb⟩, -⟩ := h
  exact hb

theorem Coherent.transferOk : TransferOk s := by
  obtain ⟨-, -, -, htr, -⟩ := h
  exact htr

theorem Coherent.blockingOk : BlockingOk s := by
  obtain ⟨-, -, -, -, hb, -⟩ := h
  exact hb

/-- While an async transfer is active no blocking command is in progress (40_blocking.md R103). -/
theorem Coherent.kind_none (hm : s.xfer.mode ≠ .idle) : s.blk.kind = none := by
  by_contra hk
  obtain ⟨⟨hidle, -⟩, -⟩ := h.blockingOk (Option.isSome_iff_ne_none.2 hk)
  exact hm hidle

/-! ## Updates that keep the invariant in every coherent state -/

theorem Coherent.after_emit (e : Event) : Coherent (s.emit e) := h

theorem Coherent.after_tickOn : Coherent s.tickOn := h

theorem Coherent.after_putTc (b : Bool) : Coherent (s.putTc b) := by
  obtain ⟨hw, ⟨hst, hcodes⟩, hrest⟩ := h
  exact ⟨hw, ⟨setBit_tc_reserved b hst, hcodes⟩, hrest⟩

theorem Coherent.after_raiseFault (f : Trap) : Coherent (raiseFault f s) := by
  obtain ⟨hw, ⟨hst, hres, -⟩, hrest⟩ := h
  have hcode : f.code.byte.toNat ≤ 9 := by cases f.code <;> decide
  exact ⟨hw, ⟨hst, hres, hcode⟩, hrest⟩

/-- An exchange may be in progress only while the bus is enabled (43_serial_engine.md R173). -/
theorem Coherent.setBusy {b : Bool} (hb : b = true → s.en = true) : Coherent { s with xferBusy := b } := by
  obtain ⟨hw, hcodes, hmem, htr, hblk, hcpc, hstream, -⟩ := h
  exact ⟨hw, hcodes, hmem, htr, hblk, hcpc, hstream, hb⟩

theorem Coherent.after_startExchange (hen : s.en = true) : Coherent (startExchange s) := h.setBusy fun _ => hen

theorem Coherent.after_abortExchange : Coherent (abortExchange s) := by
  rw [abortExchange_frame]
  exact h.setBusy nofun

theorem Coherent.after_completeExchange (b : Byte) : Coherent (completeExchange b s) :=
  (h.after_putTc true).setBusy nofun

theorem Coherent.after_loadShift (b : Byte) : Coherent (loadShift b s) := h.after_putTc false

theorem Coherent.after_dataRead : Coherent (dataRead s) := h.after_putTc false

theorem Coherent.after_dataWrite {b : Byte} {t : State} (hd : dataWrite b s = .ok t) : Coherent t := by
  rcases dataWrite_ok hd with ⟨-, -, rfl⟩ | ⟨-, hen, -, rfl⟩ | ⟨-, -, rfl⟩
  · exact h.after_emit _
  · exact (h.after_loadShift b).after_startExchange hen
  · exact h.after_loadShift b

theorem Coherent.after_sendByte {a : Nat} {t : State} (hs : sendByte a s = .ok t) : Coherent t := by
  obtain ⟨-, -, hd⟩ := sendByte_ok hs
  exact h.after_dataWrite hd

/-- A write to an existing address keeps memory canonical and inside P_MEM (20_memory.md R61, R63). -/
theorem Coherent.setMem {a : Nat} (v : Byte) (ha : existsAt s.par a = true) :
    Coherent { s with mem := Memory.write s.mem a v } := by
  obtain ⟨hw, hcodes, ⟨hwf, hall⟩, hrest⟩ := h
  exact ⟨hw, hcodes, ⟨Memory.wf_write hwf, Memory.all_write ha hall⟩, hrest⟩

theorem Coherent.after_storeByte {a : Nat} {t : State} (hs : storeByte a s = .ok t) : Coherent t := by
  obtain ⟨-, ha, rfl⟩ := storeByte_ok.1 hs
  exact h.after_dataRead.setMem _ ha

theorem Coherent.setToCount {n : Nat} (hn : n < 2 ^ s.par.sizeBits) : Coherent { s with toCount := n } := by
  obtain ⟨⟨harg, ⟨-, hhook⟩, hfits⟩, hrest⟩ := h
  exact ⟨⟨harg, ⟨hn, hhook⟩, hfits⟩, hrest⟩

/-- The blocking engine may be replaced by one that meets its own laws and has a command in progress only inside the
host stream (10_state.md R48, R49). -/
theorem Coherent.setBlk {b : Blocking} (hfits : BlockingFits s.par b) (hb : BlockingOk { s with blk := b })
    (hc : b.kind.isSome = true → s.cpc < s.ops.length) : Coherent { s with blk := b } := by
  obtain ⟨⟨harg, hcount, hx, -⟩, hcodes, hmem, htr, -, hcpc, -, hbus⟩ := h
  exact ⟨⟨harg, hcount, hx, hfits⟩, hcodes, hmem, htr, hb, hcpc, hc, hbus⟩

/-- Where no blocking command is in progress TransferState may be replaced by one that meets its own laws. -/
theorem Coherent.setTransfer (hk : s.blk.kind = none) {x : Transfer} {g : Ghost} (hfits : TransferFits s.par x)
    (hx : TransferOk (s.setTransfer x g)) : Coherent (s.setTransfer x g) := by
  obtain ⟨⟨harg, hcount, -, hb⟩, hcodes, hmem, -, -, hbus⟩ := h
  exact ⟨⟨harg, hcount, hfits, hb⟩, hcodes, hmem, hx, by simp [BlockingOk, State.setTransfer, hk], hbus⟩

/-- A committed step keeps the invariant if the state its part answers meets it: a raised fault undoes the rest. -/
theorem Coherent.after_commit {r : Except Trap State} {t : State} (hc : commit s r = .next t)
    (hok : ∀ u, r = .ok u → Coherent u) : Coherent t := by
  rcases commit_next.1 hc with hr | ⟨f, -, rfl⟩
  · exact hok t hr
  · exact h.after_raiseFault f

end

/-! ## The end of a host operation -/

theorem Result.byte_le (r : Result) : r.byte.toNat ≤ 2 := by cases r <;> decide

/-- A coherent state in which the foreground may take a host operation (42_control.md R164). -/
structure Ready (s : State) : Prop where
  coherent : Coherent s
  kind_none : s.blk.kind = none
  inStream : s.cpc < s.ops.length

theorem Ready.after_nextOp {s : State} (h : Ready s) : Coherent s.nextOp := by
  obtain ⟨⟨hw, hcodes, hmem, htr, hblk, -, -, hbus⟩, hk, hc⟩ := h
  exact ⟨hw, hcodes, hmem, htr, hblk, hc, by simp [hk], hbus⟩

theorem Ready.after_complete {s : State} (h : Ready s) (op : Instr) (r : Result) : Coherent (s.complete op r) := by
  obtain ⟨hw, ⟨hst, -, hf⟩, hrest⟩ := h.after_nextOp
  exact ⟨hw, ⟨hst, r.byte_le, hf⟩, hrest⟩

/-! ## The laws of TransferState, mode by mode (41_async.md R142, R148) -/

theorem transferOk_idle {s : State} (hm : s.xfer.mode = .idle) : TransferOk s ↔ s.xfer.remaining = 0 := by
  simp [TransferOk, hm, Mode.sends]

theorem transferOk_tx {s : State} (hm : s.xfer.mode = .tx) :
    TransferOk s ↔ s.ghost.txHi ≤ 2 ^ s.par.addrBits ∧
      (0 < s.xfer.remaining → s.ghost.txLo ≤ s.xfer.txCur ∧ s.xfer.txCur + s.xfer.remaining = s.ghost.txHi) := by
  simp [TransferOk, hm, Mode.sends]

theorem transferOk_rx {s : State} (hm : s.xfer.mode = .rx) :
    TransferOk s ↔ (0 < s.xfer.remaining → s.ghost.rxLo ≤ s.xfer.rxCur ∧
      s.xfer.rxCur + s.xfer.remaining = s.ghost.rxHi ∧ s.ghost.rxHi ≤ 2 ^ s.par.addrBits) := by
  simp [TransferOk, hm, Mode.sends]

theorem transferOk_txrx {s : State} (hm : s.xfer.mode = .txrx) :
    TransferOk s ↔ (s.ghost.txHi ≤ 2 ^ s.par.addrBits ∧
      (0 < s.xfer.remaining → s.ghost.txLo ≤ s.xfer.txCur ∧ s.xfer.txCur + s.xfer.remaining = s.ghost.txHi)) ∧
      s.ghost.rxLo ≤ s.xfer.rxCur ∧ s.xfer.rxCur + s.xfer.remaining + 1 = s.ghost.rxHi ∧
      s.ghost.rxHi ≤ 2 ^ s.par.addrBits := by
  simp [TransferOk, hm, Mode.sends]

end Sys2Proof.Machine
end

section
/-! SUPPORT. The interrupt step keeps the invariant: the advance moves each cursor with the count, so both stay in
step with the end of the region (41_async.md R136 to R148, 60_exceptions.md R203). -/

namespace Sys2Proof.Machine

theorem sendByte_keeps {a : Nat} {s t : State} (h : sendByte a s = .ok t) :
    t.par = s.par ∧ t.xfer = s.xfer := by
  obtain ⟨-, -, hd⟩ := sendByte_ok h
  obtain ⟨hp, hx, -⟩ := dataWrite_keeps hd
  exact ⟨hp, hx⟩

theorem storeByte_keeps {a : Nat} {s t : State} (h : storeByte a s = .ok t) :
    t.par = s.par ∧ t.xfer = s.xfer := by
  obtain ⟨-, -, rfl⟩ := storeByte_ok.1 h
  exact ⟨rfl, rfl⟩

section
variable {s : State} (h : Coherent s)
include h

/-- The drain: with nothing remaining the mode may go back to Idle (41_async.md R142). -/
theorem Coherent.after_toIdle (hr : s.xfer.remaining = 0) : Coherent (toIdle s) := by
  obtain ⟨hw, hcodes, hmem, -, hblk, hbus⟩ := h
  refine ⟨hw, hcodes, hmem, (transferOk_idle rfl).2 hr, fun hk => ?_, hbus⟩
  obtain ⟨⟨-, hidle⟩, hrest⟩ := hblk hk
  exact ⟨⟨rfl, hidle⟩, hrest⟩

/-- The cursor and count after a byte of mode Tx. -/
theorem Coherent.moveTx (hm : s.xfer.mode = .tx) (hr : s.xfer.remaining ≠ 0) :
    Coherent (s.setTransfer
      { s.xfer with txCur := cursorNext s.par s.xfer.txCur, remaining := s.xfer.remaining - 1 } s.ghost) := by
  obtain ⟨-, hrx, hrem⟩ := h.transferFits
  obtain ⟨hhi, hcur⟩ := (transferOk_tx hm).1 h.transferOk
  obtain ⟨hlo, hsum⟩ := hcur (by omega)
  refine h.setTransfer (h.kind_none (by simp [hm]))
    ⟨cursorNext_lt _ _, hrx, Nat.lt_of_le_of_lt (Nat.sub_le _ _) hrem⟩
    ((transferOk_tx (by exact hm)).2 ⟨hhi, fun hleft => ?_⟩)
  exact cursorNext_region hlo hsum hhi (Nat.lt_of_sub_pos hleft)

/-- The mode, cursor and count after a byte of mode Rx. -/
theorem Coherent.moveRx (hm : s.xfer.mode = .rx) (hr : s.xfer.remaining ≠ 0) :
    Coherent (s.setTransfer
      { s.xfer with
        mode := if s.xfer.remaining - 1 = 0 then .idle else s.xfer.mode
        rxCur := cursorNext s.par s.xfer.rxCur
        remaining := s.xfer.remaining - 1 } s.ghost) := by
  obtain ⟨htx, -, hrem⟩ := h.transferFits
  obtain ⟨hlo, hsum, hhi⟩ := (transferOk_rx hm).1 h.transferOk (by omega)
  refine h.setTransfer (h.kind_none (by simp [hm]))
    ⟨htx, cursorNext_lt _ _, Nat.lt_of_le_of_lt (Nat.sub_le _ _) hrem⟩ ?_
  by_cases hlast : s.xfer.remaining - 1 = 0
  · exact (transferOk_idle (if_pos hlast)).2 hlast
  · refine (transferOk_rx ((if_neg hlast).trans hm)).2 fun hleft => ?_
    obtain ⟨hlo', hsum'⟩ := cursorNext_region hlo hsum hhi (Nat.lt_of_sub_pos hleft)
    exact ⟨hlo', hsum', hhi⟩

/-- The cursors and count after a byte of mode TxRx. -/
theorem Coherent.moveTxrx (hm : s.xfer.mode = .txrx) (hr : s.xfer.remaining ≠ 0) :
    Coherent (s.setTransfer
      { s.xfer with
        txCur := cursorNext s.par s.xfer.txCur
        rxCur := cursorNext s.par s.xfer.rxCur
        remaining := s.xfer.remaining - 1 } s.ghost) := by
  obtain ⟨-, -, hrem⟩ := h.transferFits
  obtain ⟨⟨htxHi, hcur⟩, hlo, hsum, hrxHi⟩ := (transferOk_txrx hm).1 h.transferOk
  obtain ⟨htxLo, htxSum⟩ := hcur (by omega)
  obtain ⟨hrxLo, hrxSum⟩ := cursorNext_region (n := s.xfer.remaining + 1) hlo hsum hrxHi (by omega)
  refine h.setTransfer (h.kind_none (by simp [hm]))
    ⟨cursorNext_lt _ _, cursorNext_lt _ _, Nat.lt_of_le_of_lt (Nat.sub_le _ _) hrem⟩
    ((transferOk_txrx (by exact hm)).2 ⟨⟨htxHi, fun hleft => ?_⟩, hrxLo, ?_, hrxHi⟩)
  · exact cursorNext_region htxLo htxSum htxHi (Nat.lt_of_sub_pos hleft)
  · simp only [State.setTransfer_xfer, State.setTransfer_ghost]
    omega

theorem Coherent.after_advanceTx {t : State} (hm : s.xfer.mode = .tx) (ha : advanceTx s = .ok t) : Coherent t := by
  rcases advanceTx_ok ha with ⟨hr, rfl⟩ | ⟨hr, u, hu, rfl⟩
  · exact h.after_toIdle hr
  · obtain ⟨hp, hx⟩ := sendByte_keeps hu
    rw [← hx] at hm hr
    rw [← hp, ← hx]
    exact (h.after_sendByte hu).moveTx hm hr

theorem Coherent.after_advanceRx {t : State} (hm : s.xfer.mode = .rx) (ha : advanceRx s = .ok t) : Coherent t := by
  rcases advanceRx_ok ha with ⟨hr, rfl⟩ | ⟨hr, u, hu, rfl⟩
  · exact h.after_toIdle hr
  · obtain ⟨hp, hx⟩ := storeByte_keeps hu
    rw [← hx] at hm hr
    rw [← hp, ← hx]
    exact (h.after_storeByte hu).moveRx hm hr

theorem Coherent.after_advanceTxrx {t : State} (hm : s.xfer.mode = .txrx) (ha : advanceTxrx s = .ok t) :
    Coherent t := by
  rcases advanceTxrx_ok ha with ⟨hr, u, hu, rfl⟩ | ⟨hr, u, v, hu, hv, rfl⟩
  · obtain ⟨-, hx⟩ := storeByte_keeps hu
    rw [← hx] at hr
    exact (h.after_storeByte hu).after_toIdle hr
  · obtain ⟨hpu, hxu⟩ := sendByte_keeps hu
    obtain ⟨hpv, hxv⟩ := storeByte_keeps hv
    rw [← hxu, ← hxv] at hm hr
    rw [← hpu, ← hpv, ← hxu, ← hxv]
    exact ((h.after_sendByte hu).after_storeByte hv).moveTxrx hm hr

theorem Coherent.after_advance {t : State} (ha : advance s = .ok t) : Coherent t := by
  unfold advance at ha
  split at ha
  · cases ha
    exact h
  · next hm => exact h.after_advanceTx hm ha
  · next hm => exact h.after_advanceRx hm ha
  · next hm => exact h.after_advanceTxrx hm ha

theorem Coherent.after_interruptBody {t : State} (hi : interruptBody s = .ok t) : Coherent t := by
  obtain ⟨u, ha, hn⟩ := interruptBody_ok.1 hi
  have hu : Coherent u := ((h.after_emit _).after_putTc false).after_advance ha
  rcases notify_ok hn with ⟨-, rfl⟩ | ⟨-, -, rfl⟩
  · exact hu.after_emit _
  · exact hu

end

end Sys2Proof.Machine
end

section
/-! SUPPORT. The micro-steps of a blocking command keep the invariant: the index stays below the size, so no counter
of the engine wraps, and each index is late at most once (40_blocking.md R104 to R108). -/

namespace Sys2Proof.Machine

section
variable {s : State} (h : Coherent s) {k : Kind} (hk : s.blk.kind = some k)
include h hk

theorem Coherent.inStream_of_kind : s.cpc < s.ops.length := by
  obtain ⟨-, -, -, -, -, -, hstream, -⟩ := h
  exact hstream (by simp [hk])

theorem Coherent.after_beginWait (hp : s.blk.phase = .start) : Coherent (beginWait s) := by
  obtain ⟨hn, hi, hlate, -, hto, hbases⟩ := h.blockingFits
  refine h.setBlk ⟨hn, hi, hlate, hto, hto, hbases⟩ (fun hsome => ?_) fun _ => h.inStream_of_kind hk
  obtain ⟨hidle, ⟨hin, hl⟩, -, hbufs⟩ := h.blockingOk hsome
  exact ⟨hidle, ⟨hin, by simpa [hp] using hl⟩, fun _ => Nat.le_refl _, hbufs⟩

theorem Coherent.after_startStep (hp : s.blk.phase = .start) {k' : Kind} {t : State}
    (hs : startStep k' s = .ok t) : Coherent t := by
  rcases startStep_ok hs with ⟨-, b, u, -, hu, rfl⟩ | ⟨-, rfl⟩
  · obtain ⟨-, -, -, hb, -⟩ := dataWrite_keeps hu
    exact (h.after_dataWrite hu).after_beginWait (hb ▸ hk) (hb ▸ hp)
  · exact h.after_beginWait hk hp

theorem Coherent.after_waitStep (hp : s.blk.phase = .wait) : Coherent (waitStep s) := by
  obtain ⟨hn, hi, hlate, ht, hto, hbases⟩ := h.blockingFits
  obtain ⟨hidle, ⟨hin, hl⟩, htimer, hbufs⟩ := h.blockingOk (by simp [hk])
  have htimer : s.blk.t ≤ s.blk.timeout := htimer (by simp [hp])
  have hl : s.blk.late ≤ s.blk.i := by simpa [hp] using hl
  have hstream : s.cpc < s.ops.length := h.inStream_of_kind hk
  unfold waitStep
  split
  · exact h.setBlk ⟨hn, hi, hlate, ht, hto, hbases⟩
      (fun _ => ⟨hidle, ⟨hin, Nat.le_succ_of_le hl⟩, fun _ => htimer, hbufs⟩) fun _ => hstream
  · split
    · have hinc : incr s.par.sizeBits s.blk.late = s.blk.late + 1 := incr_of_lt (by omega)
      refine h.setBlk ⟨hn, hi, incr_lt _ _, ht, hto, hbases⟩
        (fun _ => ⟨hidle, ⟨hin, ?_⟩, fun _ => htimer, hbufs⟩) fun _ => hstream
      exact hinc ▸ Nat.succ_le_succ hl
    · have hdec : s.blk.t - 1 ≤ s.blk.t := Nat.sub_le _ _
      exact h.setBlk ⟨hn, hi, hlate, Nat.lt_of_le_of_lt hdec ht, hto, hbases⟩
        (fun _ => ⟨hidle, ⟨hin, by simpa [hp] using hl⟩, fun _ => Nat.le_trans hdec htimer, hbufs⟩) fun _ => hstream

theorem Coherent.after_endByte (k' : Kind) : Coherent (endByte k' s) := by
  obtain ⟨hn, -, hlate, hrest⟩ := h.blockingFits
  obtain ⟨hidle, ⟨hin, hl⟩, -, hbufs⟩ := h.blockingOk (by simp [hk])
  have hinc : incr s.par.sizeBits s.blk.i = s.blk.i + 1 := incr_of_lt (by omega)
  have hstream : s.cpc < s.ops.length := h.inStream_of_kind hk
  by_cases hlast : incr s.par.sizeBits s.blk.i = s.blk.n
  · simp only [endByte, if_pos hlast]
    have hended : Coherent { s with blk := { s.blk with i := incr s.par.sizeBits s.blk.i, kind := none } } :=
      h.setBlk ⟨hn, incr_lt _ _, hlate, hrest⟩ nofun nofun
    exact Ready.after_complete ⟨hended.setToCount hlate, rfl, hstream⟩ _ _
  · simp only [endByte, if_neg hlast]
    refine h.setBlk ⟨hn, incr_lt _ _, hlate, hrest⟩ (fun _ => ⟨hidle, ⟨?_, ?_⟩, nofun, hbufs⟩) fun _ => hstream
    · show incr s.par.sizeBits s.blk.i < s.blk.n
      omega
    · show s.blk.late ≤ incr s.par.sizeBits s.blk.i + 0
      split at hl <;> omega

theorem Coherent.after_finishStep {k' : Kind} {t : State} (hf : finishStep k' s = .ok t) : Coherent t := by
  rcases finishStep_ok hf with ⟨-, u, hu, rfl⟩ | ⟨-, rfl⟩
  · obtain ⟨-, ha, rfl⟩ := regionWrite_ok.1 hu
    exact (h.after_dataRead.setMem _ ha).after_endByte hk k'
  · exact h.after_endByte hk k'

theorem Coherent.after_microStep {t : State} (hm : microStep k s = .ok t) : Coherent t := by
  unfold microStep at hm
  split at hm
  · next hp => exact h.after_startStep hk hp hm
  · next hp =>
    cases hm
    exact h.after_waitStep hk hp
  · exact h.after_finishStep hk hm

end

end Sys2Proof.Machine
end

section
/-! SUPPORT. Every command and every host operation keeps the invariant (30_encoding.md R80 to R84). -/

namespace Sys2Proof.Machine

theorem abortExchange_xferBusy (s : State) : (abortExchange s).xferBusy = false := by
  rw [abortExchange_frame]

theorem ctrlImage_en (g : Byte) : bit (ctrlImage g) 6 = true := by
  revert g
  decide

/-- A host write to an argument register is truncated to the register's width (42_control.md R162). -/
theorem writeArg_fits {p : Params} {a b : Args} {v r : Nat} (h : ArgsFit p a) (hw : writeArg p a v r = some b) :
    ArgsFit p b := by
  obtain ⟨htx, hrx, hsize, hto, hhook⟩ := h
  unfold writeArg at hw
  split at hw <;> cases hw
  · exact ⟨truncTo_lt _ _, hrx, hsize, hto, hhook⟩
  · exact ⟨htx, truncTo_lt _ _, hsize, hto, hhook⟩
  · exact ⟨htx, hrx, truncTo_lt _ _, hto, hhook⟩
  · exact ⟨htx, hrx, hsize, truncTo_lt _ _, hhook⟩
  · exact ⟨htx, hrx, hsize, hto, hhook⟩
  · exact ⟨htx, hrx, hsize, hto, truncTo_lt _ _⟩

section
variable {s : State} (h : Ready s)
include h

/-! ## Updates that leave the foreground ready -/

theorem Ready.setCtrlStatus {c v : Byte} (hv : v &&& 0x7E#8 = 0x00#8) (hen : s.xferBusy = true → bit c 6 = true) :
    Ready { s with ctrl := c, status := v } := by
  obtain ⟨⟨hw, ⟨-, hcodes⟩, hmem, htr, -, hcpc, hstream, -⟩, hk, hc⟩ := h
  exact ⟨⟨hw, ⟨hv, hcodes⟩, hmem, htr, by simp [BlockingOk, hk], hcpc, hstream, hen⟩, hk, hc⟩

theorem Ready.after_abortExchange : Ready (abortExchange s) := by
  refine ⟨h.coherent.after_abortExchange, ?_, ?_⟩ <;> rw [abortExchange_frame]
  · exact h.kind_none
  · exact h.inStream

theorem Ready.after_dataWrite {b : Byte} {t : State} (hd : dataWrite b s = .ok t) : Ready t := by
  obtain ⟨-, -, -, hb, hc, ho⟩ := dataWrite_keeps hd
  exact ⟨h.coherent.after_dataWrite hd, hb ▸ h.kind_none, hc ▸ ho ▸ h.inStream⟩

theorem Ready.setTransfer {x : Transfer} {g : Ghost} (hfits : TransferFits s.par x)
    (hx : TransferOk (s.setTransfer x g)) : Ready (s.setTransfer x g) :=
  ⟨h.coherent.setTransfer h.kind_none hfits hx, h.kind_none, h.inStream⟩

theorem Ready.setArg {a : Args} (ha : ArgsFit s.par a) : Ready { s with arg := a } := by
  obtain ⟨⟨⟨-, hfits⟩, hrest⟩, hk, hc⟩ := h
  exact ⟨⟨⟨ha, hfits⟩, hrest⟩, hk, hc⟩

theorem Ready.setHook {n : Nat} (hn : n < 2 ^ s.par.hookBits) : Ready { s with hook := n } := by
  obtain ⟨⟨⟨harg, ⟨hcount, -⟩, hfits⟩, hrest⟩, hk, hc⟩ := h
  exact ⟨⟨⟨harg, ⟨hcount, hn⟩, hfits⟩, hrest⟩, hk, hc⟩

/-! ## Arming (41_async.md R124, R127, R130) -/

theorem Ready.after_armTx {t : State} (ha : armTx s.arg.tx s.arg.size s = .ok t) : Ready t := by
  obtain ⟨hfit, -, u, hd, rfl⟩ := armTx_ok ha
  obtain ⟨-, -, hsize, -⟩ := h.coherent.argsFit
  obtain ⟨-, hrx, -⟩ := h.coherent.transferFits
  obtain ⟨hp, -⟩ := dataWrite_keeps hd
  rw [← hp] at hfit hsize hrx ⊢
  refine (h.after_dataWrite hd).setTransfer
    ⟨cursorNext_lt _ _, hrx, Nat.lt_of_le_of_lt (Nat.sub_le _ _) hsize⟩
    ((transferOk_tx rfl).2 ⟨hfit, fun hleft => ?_⟩)
  exact cursorNext_region (Nat.le_refl _) rfl hfit (Nat.lt_of_sub_pos hleft)

theorem Ready.after_armRx {t : State} (ha : armRx s.arg.rx s.arg.size s = .ok t) : Ready t := by
  obtain ⟨hfit, rfl⟩ := armRx_ok ha
  obtain ⟨-, hrx, hsize, -⟩ := h.coherent.argsFit
  obtain ⟨htx, -⟩ := h.coherent.transferFits
  exact h.setTransfer ⟨htx, hrx, hsize⟩ ((transferOk_rx rfl).2 fun hleft => ⟨Nat.le_refl _, rfl, hfit hleft⟩)

theorem Ready.after_armTxrx {t : State} (hn : s.arg.size ≠ 0)
    (ha : armTxrx s.arg.tx s.arg.rx s.arg.size s = .ok t) : Ready t := by
  obtain ⟨hfitTx, hfitRx, -, u, hd, rfl⟩ := armTxrx_ok ha
  obtain ⟨-, hrx, hsize, -⟩ := h.coherent.argsFit
  obtain ⟨hp, -⟩ := dataWrite_keeps hd
  rw [← hp] at hfitTx hfitRx hsize hrx ⊢
  refine (h.after_dataWrite hd).setTransfer
    ⟨cursorNext_lt _ _, hrx, Nat.lt_of_le_of_lt (Nat.sub_le _ _) hsize⟩
    ((transferOk_txrx rfl).2 ⟨⟨hfitTx, fun hleft => ?_⟩, Nat.le_refl _, ?_, hfitRx⟩)
  · exact cursorNext_region (Nat.le_refl _) rfl hfitTx (Nat.lt_of_sub_pos hleft)
  · show s.arg.rx + (s.arg.size - 1) + 1 = s.arg.rx + s.arg.size
    omega

/-! ## Commands (30_encoding.md R83) -/

theorem Ready.after_arming {op : Instr} {r : Except Trap State} {t : State}
    (hc : commit s (completeArming op r) = .next t) (hr : ∀ u, r = .ok u → Ready u) : Coherent t := by
  refine h.coherent.after_commit hc fun v hv => ?_
  obtain ⟨u, hu, rfl⟩ := completeArming_ok hv
  exact (hr u hu).after_complete op .ok

theorem Ready.after_applyConfig (op : Instr) (g : Byte) : Coherent (applyConfig op g s) := by
  obtain ⟨-, ⟨hst, -⟩, -⟩ := h.after_abortExchange.coherent
  exact (h.after_abortExchange.setCtrlStatus (setBit_tc_reserved _ (setBit_div2_reserved _ hst))
    fun _ => ctrlImage_en g).after_complete op .ok

theorem Ready.after_execInit {t : State} (hx : execInit s = .next t) : Coherent t := by
  refine h.coherent.after_commit hx fun u hu => ?_
  split at hu <;> cases hu
  exact h.after_applyConfig _ _

theorem Ready.after_deinit {t : State} (hx : execDeinit s = .next t) : Coherent t := by
  cases hx
  refine (h.after_abortExchange.setCtrlStatus rfl fun hbusy => ?_).after_complete _ _
  simp [abortExchange_xferBusy] at hbusy

/-- A write to CTRL that keeps EN, or leaves no exchange in progress (42_control.md R158 to R161). -/
theorem Ready.setCtrl {c : Byte} (hen : s.xferBusy = true → bit c 6 = true) : Ready { s with ctrl := c } := by
  obtain ⟨-, ⟨hst, -⟩, -⟩ := h.coherent
  exact h.setCtrlStatus hst hen

/-- Writing CTRL.IE keeps an exchange in progress legal, as EN stays. -/
theorem Ready.setIe (b : Bool) : Ready { s with ctrl := setBit s.ctrl 7 b } := by
  obtain ⟨-, -, -, -, -, -, -, hbus⟩ := h.coherent
  refine h.setCtrl fun hbusy => ?_
  rw [bit_setBit _ _ _ _ (by decide)]
  exact hbus hbusy

theorem Ready.after_busEnable {t : State} (hx : execBusEnable s = .next t) : Coherent t := by
  cases hx
  refine (h.setCtrl fun _ => ?_).after_complete _ _
  rw [bit_setBit _ _ _ _ (by decide)]
  rfl

theorem Ready.after_busDisable {t : State} (hx : execBusDisable s = .next t) : Coherent t := by
  cases hx
  refine (h.after_abortExchange.setCtrl fun hbusy => ?_).after_complete _ _
  simp [abortExchange_xferBusy] at hbusy

theorem latchBlocking_fits {k : Kind} : BlockingFits s.par (latchBlocking k s.arg s.blk) := by
  obtain ⟨htx, hrx, hsize, hto, -⟩ := h.coherent.argsFit
  obtain ⟨-, -, -, ht, -, htxb, hrxb⟩ := h.coherent.blockingFits
  refine ⟨hsize, Nat.two_pow_pos _, Nat.two_pow_pos _, ht, hto, ?_, ?_⟩
  · simp only [latchBlocking]
    split
    · exact htx
    · exact htxb
  · simp only [latchBlocking]
    split
    · exact hrx
    · exact hrxb

theorem Ready.after_issueBlocking {k : Kind} {t : State} (hx : commit s (issueBlocking k s) = .next t) :
    Coherent t := by
  refine h.coherent.after_commit hx fun u hu => ?_
  rcases issueBlocking_ok hu with ⟨-, rfl⟩ | ⟨hsize, hidle, hfitTx, hfitRx, rfl⟩
  · exact Ready.after_complete ⟨h.coherent.setToCount (Nat.two_pow_pos _), h.kind_none, h.inStream⟩ _ _
  · refine h.coherent.setBlk (latchBlocking_fits h) (fun _ => ?_) fun _ => h.inStream
    refine ⟨hidle, ⟨Nat.pos_of_ne_zero hsize, Nat.zero_le _⟩, nofun, ?_, ?_⟩
    · rintro (hk | hk) <;> cases hk <;> exact hfitTx rfl
    · rintro (hk | hk) <;> cases hk <;> exact hfitRx rfl

theorem Ready.after_txAsync {t : State} (hx : execTxAsync s = .next t) : Coherent t := by
  unfold execTxAsync at hx
  split at hx
  · cases hx
    exact h.after_complete _ _
  · split at hx
    · cases hx
      exact h.after_complete _ _
    · exact h.after_arming hx fun _ => h.after_armTx

theorem Ready.after_rxAsync {t : State} (hx : execRxAsync s = .next t) : Coherent t := by
  unfold execRxAsync at hx
  split at hx
  · cases hx
    exact h.after_complete _ _
  · exact h.after_arming hx fun _ => h.after_armRx

theorem Ready.after_txrxAsync {t : State} (hx : execTxrxAsync s = .next t) : Coherent t := by
  unfold execTxrxAsync at hx
  split at hx
  · cases hx
    exact h.after_complete _ _
  · split at hx
    · cases hx
      exact h.after_complete _ _
    · next hsize => exact h.after_arming hx fun _ => h.after_armTxrx hsize

theorem Ready.after_exec {i : Instr} {t : State} (hx : exec i s = .next t) : Coherent t := by
  cases i with
  | init => exact h.after_execInit hx
  | deinit => exact h.after_deinit hx
  | initCtrlDefault | initPeriphDefault =>
    cases hx
    exact h.after_applyConfig _ _
  | tx | rx | txrx => exact h.after_issueBlocking hx
  | txAsync => exact h.after_txAsync hx
  | rxAsync => exact h.after_rxAsync hx
  | txrxAsync => exact h.after_txrxAsync hx
  | setHook =>
    cases hx
    obtain ⟨-, -, -, -, hhook⟩ := h.coherent.argsFit
    exact (h.setHook hhook).after_complete _ _
  | irqEnable | irqDisable =>
    cases hx
    exact (h.setIe _).after_complete _ _
  | busEnable => exact h.after_busEnable hx
  | busDisable => exact h.after_busDisable hx

/-! ## Host operations (30_encoding.md R80) -/

theorem Ready.after_issueCommand {v : Nat} {t : State} (hx : issueCommand v s = .next t) : Coherent t := by
  unfold issueCommand at hx
  split at hx
  · exact h.after_exec hx
  · cases hx
    exact h.coherent.after_raiseFault _

theorem Ready.after_hostWrite {r v : Nat} {t : State} (hx : hostWrite r v s = .next t) : Coherent t := by
  unfold hostWrite at hx
  split at hx
  · exact h.after_issueCommand hx
  · refine h.coherent.after_commit hx fun u hu => ?_
    split at hu <;> cases hu
    next hw => exact (h.setArg (writeArg_fits h.coherent.argsFit hw)).after_nextOp

theorem Ready.after_hostRead {r : Nat} {t : State} (hx : hostRead r s = .next t) : Coherent t := by
  refine h.coherent.after_commit hx fun u hu => ?_
  split at hu <;> cases hu
  exact h.after_nextOp

theorem Ready.after_hostMemWrite {a : Nat} {v : Byte} {t : State} (hx : hostMemWrite a v s = .next t) :
    Coherent t := by
  refine h.coherent.after_commit hx fun u hu => ?_
  split at hu
  · cases hu
  · next hw =>
    obtain ⟨ha, rfl⟩ := memWrite_ok.1 hw
    split at hu <;> cases hu
    exact Ready.after_nextOp ⟨h.coherent.setMem v ha, h.kind_none, h.inStream⟩

theorem Ready.after_hostMemRead {a : Nat} {t : State} (hx : hostMemRead a s = .next t) : Coherent t := by
  refine h.coherent.after_commit hx fun u hu => ?_
  split at hu
  · cases hu
  · split at hu <;> cases hu
    exact h.after_nextOp

theorem Ready.after_hostOpStep {op : HostOp} {t : State} (hx : hostOpStep op s = .next t) : Coherent t := by
  cases op with
  | hw r v => exact h.after_hostWrite hx
  | hr r => exact h.after_hostRead hx
  | hmw a v => exact h.after_hostMemWrite hx
  | hmr a => exact h.after_hostMemRead hx

end

/-! ## The step -/

section
variable {s : State} (h : Coherent s)
include h

theorem Coherent.after_foregroundStep {t : State} (hx : foregroundStep s = .next t) : Coherent t := by
  unfold foregroundStep at hx
  split at hx
  · next hk => exact h.after_commit hx fun _ => h.after_microStep hk
  · next hk =>
    split at hx
    · next hop =>
      obtain ⟨hc, -⟩ := List.getElem?_eq_some_iff.1 hop
      exact Ready.after_hostOpStep ⟨h, hk, hc⟩ hx
    · cases hx

theorem Coherent.after_runMove {m : Move} {t : State} (he : enabled s m = true) (hx : runMove m s = .next t) :
    Coherent t := by
  cases m with
  | foreground => exact h.after_foregroundStep hx
  | interrupt => exact h.after_commit hx fun _ => h.after_interruptBody
  | exchangeDone b =>
    cases hx
    exact h.after_completeExchange b
  | peerStart =>
    cases hx
    have hen : s.en = true := by simp_all [enabled, peerEnabled]
    exact h.after_startExchange hen
  | peerWait =>
    cases hx
    exact h

end

/-- Settles O16: the next move is enabled, each agent's move keeps the invariant, and it does not speak of the
model's own fields. -/
theorem stepKeepsInvariant : Obligations.StepKeepsInvariant := by
  unfold Obligations.StepKeepsInvariant
  intro s t h hstep
  obtain ⟨m, u, hm, hrun, rfl⟩ := step_next.1 hstep
  exact (h.after_runMove (enabled_of_nextMove hm) hrun).after_tickOn

end Sys2Proof.Machine
end

section
/-! SUPPORT. What every part of a step leaves of the launch arguments, S.cpc and TC: the relation `Quiet`, its rules,
and one lemma for each part (10_state.md R49, R53, R54). -/

namespace Sys2Proof.Machine

/-- From `s` to `t` the launch arguments stay, S.cpc moves on by at most `k`, and TC is not set (10_state.md R49, R53,
R54). An exchange completion is the one move that does more. -/
structure Quiet (k : Nat) (s t : State) : Prop where
  par : t.par = s.par
  ops : t.ops = s.ops
  cpc : ∃ n ≤ k, t.cpc = s.cpc + n
  tc : t.tc = true → s.tc = true

/-! ## Rules of `Quiet` -/

section
variable {k : Nat} {s t u : State}

theorem Quiet.inPlace (hp : t.par = s.par) (ho : t.ops = s.ops) (hc : t.cpc = s.cpc)
    (htc : t.tc = true → s.tc = true) : Quiet k s t := ⟨hp, ho, ⟨0, Nat.zero_le k, hc⟩, htc⟩

theorem Quiet.moved (hp : t.par = s.par) (ho : t.ops = s.ops) (hc : t.cpc = s.cpc + 1)
    (htc : t.tc = true → s.tc = true) : Quiet 1 s t := ⟨hp, ho, ⟨1, Nat.le_refl 1, hc⟩, htc⟩

theorem Quiet.refl (s : State) : Quiet k s s := .inPlace rfl rfl rfl id

theorem Quiet.cpc_eq (h : Quiet 0 s t) : t.cpc = s.cpc := by
  obtain ⟨n, hn, hc⟩ := h.cpc
  rw [hc, Nat.le_zero.1 hn, Nat.add_zero]

theorem Quiet.trans (h : Quiet 0 s t) (h' : Quiet k t u) : Quiet k s u :=
  ⟨h'.par.trans h.par, h'.ops.trans h.ops, h.cpc_eq ▸ h'.cpc, h.tc ∘ h'.tc⟩

theorem Quiet.mono (h : Quiet 0 s t) : Quiet k s t := h.trans (.refl t)

theorem Quiet.after_complete (h : Quiet 0 s t) (op : Instr) (r : Result) : Quiet 1 s (t.complete op r) :=
  h.trans (.moved rfl rfl rfl id)

theorem Quiet.tc_false (h : Quiet k s t) (hs : s.tc = false) : t.tc = false := by
  cases ht : t.tc with
  | false => rfl
  | true => exact (h.tc ht).symm.trans hs

/-- A raised fault is quiet: it undoes the rest of the step (60_exceptions.md R216). -/
theorem Quiet.of_commit {r : Except Trap State} (hc : commit s r = .next t) (hok : ∀ u, r = .ok u → Quiet k s u) :
    Quiet k s t := by
  rcases commit_next.1 hc with hr | ⟨f, -, rfl⟩
  · exact hok t hr
  · exact .inPlace rfl rfl rfl id

end

/-! ## DATA and the async transfer -/

theorem loadShift_quiet (b : Byte) (s : State) : Quiet 0 s (loadShift b s) :=
  .inPlace rfl rfl rfl (by simp)

theorem dataRead_quiet (s : State) : Quiet 0 s (dataRead s) := .inPlace rfl rfl rfl (by simp)

theorem setTransfer_quiet (s : State) (x : Transfer) (g : Ghost) : Quiet 0 s (s.setTransfer x g) :=
  .inPlace rfl rfl rfl id

theorem toIdle_quiet (s : State) : Quiet 0 s (toIdle s) := .inPlace rfl rfl rfl id

theorem dataWrite_quiet {b : Byte} {s t : State} (h : dataWrite b s = .ok t) : Quiet 0 s t := by
  rcases dataWrite_ok h with ⟨-, -, rfl⟩ | ⟨-, -, -, rfl⟩ | ⟨-, -, rfl⟩
  · exact .inPlace rfl rfl rfl id
  · exact (loadShift_quiet b s).trans (.inPlace rfl rfl rfl id)
  · exact loadShift_quiet b s

theorem sendByte_quiet {a : Nat} {s t : State} (h : sendByte a s = .ok t) : Quiet 0 s t := by
  obtain ⟨-, -, hd⟩ := sendByte_ok h
  exact dataWrite_quiet hd

theorem regionWrite_quiet {lo hi a : Nat} {v : Byte} {s t : State} (h : regionWrite lo hi a v s = .ok t) :
    Quiet 0 s t := by
  obtain ⟨-, -, rfl⟩ := regionWrite_ok.1 h
  exact .inPlace rfl rfl rfl id

theorem storeByte_quiet {a : Nat} {s t : State} (h : storeByte a s = .ok t) : Quiet 0 s t :=
  (dataRead_quiet s).trans (regionWrite_quiet h)

theorem advanceTx_quiet {s t : State} (h : advanceTx s = .ok t) : Quiet 0 s t := by
  rcases advanceTx_ok h with ⟨-, rfl⟩ | ⟨-, u, hu, rfl⟩
  · exact toIdle_quiet s
  · exact (sendByte_quiet hu).trans (setTransfer_quiet u _ _)

theorem advanceRx_quiet {s t : State} (h : advanceRx s = .ok t) : Quiet 0 s t := by
  rcases advanceRx_ok h with ⟨-, rfl⟩ | ⟨-, u, hu, rfl⟩
  · exact toIdle_quiet s
  · exact (storeByte_quiet hu).trans (setTransfer_quiet u _ _)

theorem advanceTxrx_quiet {s t : State} (h : advanceTxrx s = .ok t) : Quiet 0 s t := by
  rcases advanceTxrx_ok h with ⟨-, u, hu, rfl⟩ | ⟨-, u, v, hu, hv, rfl⟩
  · exact (storeByte_quiet hu).trans (toIdle_quiet u)
  · exact ((sendByte_quiet hu).trans (storeByte_quiet hv)).trans (setTransfer_quiet v _ _)

theorem advance_quiet {s t : State} (h : advance s = .ok t) : Quiet 0 s t := by
  unfold advance at h
  split at h
  · cases h
    exact .refl s
  · exact advanceTx_quiet h
  · exact advanceRx_quiet h
  · exact advanceTxrx_quiet h

theorem interruptEntry_quiet (s : State) : Quiet 0 s (interruptEntry s) :=
  .inPlace rfl rfl rfl (by simp [interruptEntry])

theorem notify_quiet {s t : State} (h : notify s = .ok t) : Quiet 0 s t := by
  rcases notify_ok h with ⟨-, rfl⟩ | ⟨-, -, rfl⟩
  · exact .inPlace rfl rfl rfl id
  · exact .refl t

theorem interruptStep_quiet {s t : State} (h : interruptStep s = .next t) : Quiet 0 s t := by
  refine .of_commit h fun v hv => ?_
  obtain ⟨u, ha, hn⟩ := interruptBody_ok.1 hv
  exact ((interruptEntry_quiet s).trans (advance_quiet ha)).trans (notify_quiet hn)

/-! ## Blocking micro-steps -/

theorem startStep_quiet {k : Kind} {s t : State} (h : startStep k s = .ok t) : Quiet 0 s t := by
  rcases startStep_ok h with ⟨-, b, u, -, hu, rfl⟩ | ⟨-, rfl⟩
  · exact (dataWrite_quiet hu).trans (.inPlace rfl rfl rfl id)
  · exact .inPlace rfl rfl rfl id

theorem waitStep_quiet (s : State) : Quiet 0 s (waitStep s) := by
  unfold waitStep
  split
  · exact .inPlace rfl rfl rfl id
  · split <;> exact .inPlace rfl rfl rfl id

theorem endByte_quiet (k : Kind) (s : State) : Quiet 1 s (endByte k s) := by
  by_cases hlast : incr s.par.sizeBits s.blk.i = s.blk.n
  · simp only [endByte, if_pos hlast]
    exact .moved rfl rfl rfl id
  · simp only [endByte, if_neg hlast]
    exact .inPlace rfl rfl rfl id

theorem finishStep_quiet {k : Kind} {s t : State} (h : finishStep k s = .ok t) : Quiet 1 s t := by
  rcases finishStep_ok h with ⟨-, u, hu, rfl⟩ | ⟨-, rfl⟩
  · exact ((dataRead_quiet s).trans (regionWrite_quiet hu)).trans (endByte_quiet k u)
  · exact endByte_quiet k s

theorem microStep_quiet {k : Kind} {s t : State} (h : microStep k s = .ok t) : Quiet 1 s t := by
  unfold microStep at h
  split at h
  · exact (startStep_quiet h).mono
  · cases h
    exact (waitStep_quiet s).mono
  · exact finishStep_quiet h

/-! ## Commands -/

theorem abortExchange_quiet (s : State) : Quiet 0 s (abortExchange s) := by
  rw [abortExchange_frame]
  exact .inPlace rfl rfl rfl id

@[simp] theorem applyConfig_tc (op : Instr) (g : Byte) (s : State) : (applyConfig op g s).tc = false := by
  simp [applyConfig, State.tc, bit_setBit]

theorem applyConfig_quiet (op : Instr) (g : Byte) (s : State) : Quiet 1 s (applyConfig op g s) :=
  (abortExchange_quiet s).trans (.moved rfl rfl rfl (by simp))

theorem issueBlocking_quiet {k : Kind} {s t : State} (h : issueBlocking k s = .ok t) : Quiet 1 s t := by
  rcases issueBlocking_ok h with ⟨-, rfl⟩ | ⟨-, -, -, -, rfl⟩
  · exact .moved rfl rfl rfl id
  · exact .inPlace rfl rfl rfl id

theorem armTx_quiet {a n : Nat} {s t : State} (h : armTx a n s = .ok t) : Quiet 0 s t := by
  obtain ⟨-, -, u, hu, rfl⟩ := armTx_ok h
  exact (dataWrite_quiet hu).trans (setTransfer_quiet u _ _)

theorem armRx_quiet {b n : Nat} {s t : State} (h : armRx b n s = .ok t) : Quiet 0 s t := by
  obtain ⟨-, rfl⟩ := armRx_ok h
  exact setTransfer_quiet s _ _

theorem armTxrx_quiet {a b n : Nat} {s t : State} (h : armTxrx a b n s = .ok t) : Quiet 0 s t := by
  obtain ⟨-, -, -, u, hu, rfl⟩ := armTxrx_ok h
  exact (dataWrite_quiet hu).trans (setTransfer_quiet u _ _)

theorem completeArming_quiet {op : Instr} {r : Except Trap State} {s t : State} (h : completeArming op r = .ok t)
    (hr : ∀ u, r = .ok u → Quiet 0 s u) : Quiet 1 s t := by
  obtain ⟨u, hu, rfl⟩ := completeArming_ok h
  exact (hr u hu).after_complete op .ok

theorem execTxAsync_quiet {s t : State} (h : execTxAsync s = .next t) : Quiet 1 s t := by
  refine .of_commit h fun u hu => ?_
  split at hu
  · cases hu
    exact .moved rfl rfl rfl id
  · split at hu
    · cases hu
      exact .moved rfl rfl rfl id
    · exact completeArming_quiet hu fun _ => armTx_quiet

theorem execRxAsync_quiet {s t : State} (h : execRxAsync s = .next t) : Quiet 1 s t := by
  refine .of_commit h fun u hu => ?_
  split at hu
  · cases hu
    exact .moved rfl rfl rfl id
  · exact completeArming_quiet hu fun _ => armRx_quiet

theorem execTxrxAsync_quiet {s t : State} (h : execTxrxAsync s = .next t) : Quiet 1 s t := by
  refine .of_commit h fun u hu => ?_
  split at hu
  · cases hu
    exact .moved rfl rfl rfl id
  · split at hu
    · cases hu
      exact .moved rfl rfl rfl id
    · exact completeArming_quiet hu fun _ => armTxrx_quiet

theorem exec_quiet {i : Instr} {s t : State} (h : exec i s = .next t) : Quiet 1 s t := by
  cases i with
  | init =>
    refine .of_commit h fun u hu => ?_
    split at hu <;> cases hu
    exact applyConfig_quiet _ _ s
  | initCtrlDefault | initPeriphDefault =>
    cases h
    exact applyConfig_quiet _ _ s
  | deinit =>
    cases h
    exact (abortExchange_quiet s).trans (.moved rfl rfl rfl (by simp [State.tc, bit]))
  | busDisable =>
    cases h
    exact (abortExchange_quiet s).trans (.moved rfl rfl rfl id)
  | setHook | irqEnable | irqDisable | busEnable =>
    cases h
    exact .moved rfl rfl rfl id
  | tx | rx | txrx => exact .of_commit h fun _ => issueBlocking_quiet
  | txAsync => exact execTxAsync_quiet h
  | rxAsync => exact execRxAsync_quiet h
  | txrxAsync => exact execTxrxAsync_quiet h

/-! ## Host operations and the foreground step -/

theorem hostWrite_quiet {r v : Nat} {s t : State} (h : hostWrite r v s = .next t) : Quiet 1 s t := by
  unfold hostWrite issueCommand at h
  split at h
  · split at h
    · exact exec_quiet h
    · exact .of_commit h nofun
  · refine .of_commit h fun u hu => ?_
    split at hu <;> cases hu
    exact .moved rfl rfl rfl id

theorem hostRead_quiet {r : Nat} {s t : State} (h : hostRead r s = .next t) : Quiet 1 s t := by
  refine .of_commit h fun u hu => ?_
  split at hu <;> cases hu
  exact .moved rfl rfl rfl id

theorem hostMemWrite_quiet {a : Nat} {v : Byte} {s t : State} (h : hostMemWrite a v s = .next t) : Quiet 1 s t := by
  refine .of_commit h fun u hu => ?_
  split at hu
  · cases hu
  · next hw =>
    obtain ⟨-, rfl⟩ := memWrite_ok.1 hw
    split at hu <;> cases hu
    exact .moved rfl rfl rfl id

theorem hostMemRead_quiet {a : Nat} {s t : State} (h : hostMemRead a s = .next t) : Quiet 1 s t := by
  refine .of_commit h fun u hu => ?_
  split at hu
  · cases hu
  · split at hu <;> cases hu
    exact .moved rfl rfl rfl id

theorem foregroundStep_quiet {s t : State} (h : foregroundStep s = .next t) : Quiet 1 s t := by
  unfold foregroundStep at h
  split at h
  · exact .of_commit h fun _ => microStep_quiet
  · split at h
    · next op _ =>
      cases op with
      | hw r v => exact hostWrite_quiet h
      | hr r => exact hostRead_quiet h
      | hmw a v => exact hostMemWrite_quiet h
      | hmr a => exact hostMemRead_quiet h
    · cases h

/-! ## The step -/

/-- Settles O11: every move but a completion is quiet, and a completion writes neither. -/
theorem launchArgumentsNeverChange : Obligations.LaunchArgumentsNeverChange := by
  unfold Obligations.LaunchArgumentsNeverChange
  intro s t hstep
  obtain ⟨m, u, -, hrun, rfl⟩ := step_next.1 hstep
  cases m with
  | foreground =>
    have h := foregroundStep_quiet hrun
    exact ⟨h.par, h.ops⟩
  | interrupt =>
    have h := interruptStep_quiet hrun
    exact ⟨h.par, h.ops⟩
  | exchangeDone b | peerStart | peerWait =>
    cases hrun
    exact ⟨rfl, rfl⟩

/-- Settles O12: a foreground step is `Quiet 1`, and no other move writes S.cpc. -/
theorem commandPointerAdvances : Obligations.CommandPointerAdvances := by
  unfold Obligations.CommandPointerAdvances
  intro s t hstep
  obtain ⟨m, u, hm, hrun, rfl⟩ := step_next.1 hstep
  cases m with
  | foreground =>
    obtain ⟨n, hn, hc⟩ := (foregroundStep_quiet hrun).cpc
    rcases Nat.le_one_iff_eq_zero_or_eq_one.1 hn with rfl | rfl
    · exact .inl hc
    · exact .inr ⟨hc, hm⟩
  | interrupt => exact .inl (interruptStep_quiet hrun).cpc_eq
  | exchangeDone b | peerStart | peerWait =>
    cases hrun
    exact .inl rfl

/-- Settles O55: a foreground step and an interrupt are quiet, so they do not set TC; the remote party's moves leave
it as it is. -/
theorem flagSetOnlyByCompletion : Obligations.FlagSetOnlyByCompletion := by
  unfold Obligations.FlagSetOnlyByCompletion
  intro s t hstep
  obtain ⟨m, u, hm, hrun, rfl⟩ := step_next.1 hstep
  rw [State.tickOn_tc]
  cases m with
  | foreground =>
    refine ⟨fun hs ht => ?_, fun _ _ => .inl hm⟩
    simp [(foregroundStep_quiet hrun).tc_false hs] at ht
  | interrupt =>
    refine ⟨fun hs ht => ?_, fun _ _ => .inr hm⟩
    simp [(interruptStep_quiet hrun).tc_false hs] at ht
  | exchangeDone b =>
    cases hrun
    exact ⟨fun _ _ => ⟨b, hm⟩, fun _ ht => by simp at ht⟩
  | peerStart | peerWait =>
    cases hrun
    exact ⟨fun hs ht => absurd (hs.symm.trans ht) nofun, fun hs ht => absurd (hs.symm.trans ht) nofun⟩

end Sys2Proof.Machine
end

section
/-! SUPPORT. SEQ_STATUS, bit by bit (10_state.md R32). -/

namespace Sys2Proof.Machine

/-- From the lowest: BUSY, ACTIVE, the two bits of MODE, XFER, and zeros (10_state.md R32). -/
theorem bit_seqStatus (s : State) (k : Nat) :
    bit s.seqStatus k =
      match k with
      | 0 => s.seqBusy
      | 1 => s.seqActive
      | 2 => s.xfer.mode.code.getLsbD 0
      | 3 => s.xfer.mode.code.getLsbD 1
      | 4 => s.xferBusy
      | _ + 5 => false := by
  unfold bit State.seqStatus
  change BitVec.getLsbD (w := 3 + 1 + 2 + 1 + 1) _ k = _
  simp only [BitVec.getLsbD_append, BitVec.getLsbD_ofBool]
  match k with
  | 0 | 1 | 2 | 3 | 4 => simp
  | j + 5 => simp

/-- MODE holds the code of S.mode. -/
theorem seqStatus_mode {s : State} {m : Mode} (hm : s.xfer.mode = m) :
    bit s.seqStatus 3 = m.code.getLsbD 1 ∧ bit s.seqStatus 2 = m.code.getLsbD 0 :=
  hm ▸ ⟨bit_seqStatus s 3, bit_seqStatus s 2⟩

/-- Settles O59: the accesses are `hostRead` and `hostWrite` at register 11, and each field is read off its bits. -/
theorem seqStatusFields : Obligations.SeqStatusFields := by
  unfold Obligations.SeqStatusFields
  refine ⟨rfl, fun s => ⟨rfl, fun _ => rfl, ?_, ?_,
    seqStatus_mode, seqStatus_mode, seqStatus_mode, seqStatus_mode, bit_seqStatus s 4, fun k hk => ?_⟩⟩
  · simp [bit_seqStatus, State.seqBusy]
  · simp [bit_seqStatus, State.seqActive]
  · obtain ⟨j, rfl⟩ := Nat.exists_eq_add_of_le' hk
    exact bit_seqStatus s (j + 5)

end Sys2Proof.Machine
end

section
/-! SUPPORT. No part of a step reads the trace: each commutes with putting events before the trace (10_state.md
R50). -/

namespace Sys2Proof.Machine

/-- The state with the events `p` put before its trace. -/
def State.prepend (p : List Event) (s : State) : State := { s with trace := p ++ s.trace }

/-- An outcome with the events `p` put before the trace of its next state. -/
def prependNext (p : List Event) : Host.Outcome State Fault Refusal → Host.Outcome State Fault Refusal
  | .next t => .next (t.prepend p)
  | .fault f => .fault f
  | .refused r => .refused r

section
variable (p : List Event) (s : State)

@[simp] theorem State.prepend_par : (s.prepend p).par = s.par := rfl
@[simp] theorem State.prepend_ops : (s.prepend p).ops = s.ops := rfl
@[simp] theorem State.prepend_arg : (s.prepend p).arg = s.arg := rfl
@[simp] theorem State.prepend_xfer : (s.prepend p).xfer = s.xfer := rfl
@[simp] theorem State.prepend_ghost : (s.prepend p).ghost = s.ghost := rfl
@[simp] theorem State.prepend_hook : (s.prepend p).hook = s.hook := rfl
@[simp] theorem State.prepend_rxLatch : (s.prepend p).rxLatch = s.rxLatch := rfl
@[simp] theorem State.prepend_xferBusy : (s.prepend p).xferBusy = s.xferBusy := rfl
@[simp] theorem State.prepend_blk : (s.prepend p).blk = s.blk := rfl
@[simp] theorem State.prepend_cpc : (s.prepend p).cpc = s.cpc := rfl
@[simp] theorem State.prepend_ie : (s.prepend p).ie = s.ie := rfl
@[simp] theorem State.prepend_en : (s.prepend p).en = s.en := rfl
@[simp] theorem State.prepend_role : (s.prepend p).role = s.role := rfl
@[simp] theorem State.prepend_tc : (s.prepend p).tc = s.tc := rfl

/-! ## Updates of the state -/

@[simp] theorem emit_prepend (e : Event) : (s.prepend p).emit e = (s.emit e).prepend p := by
  simp [State.emit, State.prepend]

@[simp] theorem startExchange_prepend : startExchange (s.prepend p) = (startExchange s).prepend p := by
  simp [startExchange, State.prepend]

@[simp] theorem loadShift_prepend (b : Byte) : loadShift b (s.prepend p) = (loadShift b s).prepend p := by
  simp [loadShift, State.prepend]

@[simp] theorem dataRead_prepend : dataRead (s.prepend p) = (dataRead s).prepend p := by
  simp [dataRead, State.prepend]

@[simp] theorem abortExchange_prepend : abortExchange (s.prepend p) = (abortExchange s).prepend p := by
  cases hbusy : s.xferBusy <;> simp [abortExchange, hbusy, State.prepend]

@[simp] theorem completeExchange_prepend (b : Byte) :
    completeExchange b (s.prepend p) = (completeExchange b s).prepend p := by
  simp [completeExchange, State.prepend]

@[simp] theorem interruptEntry_prepend : interruptEntry (s.prepend p) = (interruptEntry s).prepend p := by
  simp [interruptEntry, State.putTc, State.emit, State.prepend]

theorem raiseFault_prepend (f : Trap) : raiseFault f (s.prepend p) = (raiseFault f s).prepend p := by
  simp [raiseFault, State.prepend]

theorem setTransfer_prepend (x : Transfer) (g : Ghost) :
    (s.prepend p).setTransfer x g = (s.setTransfer x g).prepend p := rfl

variable {s}

/-- A command ends in a record update of the state, so what it is `prepend` of is a hypothesis, which `rfl` proves. -/
theorem complete_prepend {t : State} (h : t = s.prepend p) (op : Instr) (r : Result) :
    t.complete op r = (s.complete op r).prepend p := by
  simp [h, State.complete, State.prepend]

theorem next_complete_prepend {t : State} (h : t = s.prepend p) (op : Instr) (r : Result) :
    .next (t.complete op r) = prependNext p (.next (s.complete op r)) :=
  congrArg Host.Outcome.next (complete_prepend p h op r)

theorem commit_prepend {r r' : Except Trap State} (h : r' = r.map (State.prepend p)) :
    commit (s.prepend p) r' = prependNext p (commit s r) := by
  subst h
  cases r with
  | ok t => rfl
  | error f => exact congrArg Host.Outcome.next (raiseFault_prepend p s f)

variable (s)

/-! ## DATA and caller memory -/

theorem dataWrite_prepend (b : Byte) : dataWrite b (s.prepend p) = (dataWrite b s).map (State.prepend p) := by
  cases hbusy : s.xferBusy with
  | true => cases hpol : s.par.writeWhileBusy <;> simp [dataWrite, hbusy, hpol, Except.map]
  | false => cases hon : s.en && s.role <;> simp [dataWrite_idle, hbusy, hon, Except.map]

theorem regionRead_prepend (lo hi a : Nat) : regionRead lo hi a (s.prepend p) = regionRead lo hi a s := rfl

theorem memWrite_prepend (a : Nat) (v : Byte) :
    memWrite a v (s.prepend p) = (memWrite a v s).map (State.prepend p) := by
  unfold memWrite
  rw [State.prepend_par]
  split <;> rfl

theorem regionWrite_prepend (lo hi a : Nat) (v : Byte) :
    regionWrite lo hi a v (s.prepend p) = (regionWrite lo hi a v s).map (State.prepend p) := by
  unfold regionWrite
  split
  · exact memWrite_prepend p s a v
  · rfl

theorem sendByte_prepend (a : Nat) : sendByte a (s.prepend p) = (sendByte a s).map (State.prepend p) := by
  unfold sendByte
  rw [State.prepend_ghost, regionRead_prepend]
  split
  · rfl
  · exact dataWrite_prepend p s _

theorem storeByte_prepend (a : Nat) : storeByte a (s.prepend p) = (storeByte a s).map (State.prepend p) := by
  unfold storeByte
  rw [dataRead_prepend]
  exact regionWrite_prepend p (dataRead s) _ _ a s.rxLatch

/-! ## The async transfer -/

/-- TX_ASYNC whose region fits sends the first byte, and the cursor and count follow (41_async.md R124). -/
theorem armTx_of_fits {a n : Nat} {s : State} (hfit : regionFits s.par a n = true) :
    armTx a n s =
      (sendByte a (s.setTransfer { s.xfer with mode := .tx } { s.ghost with txLo := a, txHi := a + n })).map
        fun t => t.setTransfer { t.xfer with txCur := cursorNext s.par a, remaining := n - 1 } t.ghost := by
  simp only [armTx, hfit, not_true_eq_false, if_false, State.setTransfer]
  split <;> simp [*, Except.map]

/-- TXRX_ASYNC whose regions fit sends the first byte, and the cursors and count follow (41_async.md R130). -/
theorem armTxrx_of_fits {a b n : Nat} {s : State} (htx : regionFits s.par a n = true)
    (hrx : regionFits s.par b n = true) :
    armTxrx a b n s =
      (sendByte a
        (s.setTransfer { s.xfer with mode := .txrx } { txLo := a, txHi := a + n, rxLo := b, rxHi := b + n })).map
        fun t =>
          t.setTransfer { t.xfer with txCur := cursorNext s.par a, rxCur := b, remaining := n - 1 } t.ghost := by
  simp only [armTxrx, htx, hrx, not_true_eq_false, if_false, State.setTransfer]
  split <;> simp [*, Except.map]

theorem armTx_prepend (a n : Nat) : armTx a n (s.prepend p) = (armTx a n s).map (State.prepend p) := by
  cases hfit : regionFits s.par a n with
  | false => simp [armTx, hfit, Except.map]
  | true =>
    rw [armTx_of_fits hfit, armTx_of_fits (by exact hfit), setTransfer_prepend, sendByte_prepend,
      State.prepend_xfer, State.prepend_ghost]
    cases sendByte a (s.setTransfer _ _) <;> rfl

theorem armRx_prepend (b n : Nat) : armRx b n (s.prepend p) = (armRx b n s).map (State.prepend p) := by
  unfold armRx
  rw [State.prepend_par]
  split <;> rfl

theorem armTxrx_prepend (a b n : Nat) :
    armTxrx a b n (s.prepend p) = (armTxrx a b n s).map (State.prepend p) := by
  cases htx : regionFits s.par a n with
  | false => simp [armTxrx, htx, Except.map]
  | true =>
    cases hrx : regionFits s.par b n with
    | false => simp [armTxrx, htx, hrx, Except.map]
    | true =>
      rw [armTxrx_of_fits htx hrx, armTxrx_of_fits (by exact htx) (by exact hrx), setTransfer_prepend,
        sendByte_prepend, State.prepend_xfer]
      cases sendByte a (s.setTransfer _ _) <;> rfl

theorem advanceTx_prepend : advanceTx (s.prepend p) = (advanceTx s).map (State.prepend p) := by
  unfold advanceTx
  rw [State.prepend_xfer, sendByte_prepend]
  split
  · rfl
  · cases sendByte s.xfer.txCur s <;> rfl

theorem advanceRx_prepend : advanceRx (s.prepend p) = (advanceRx s).map (State.prepend p) := by
  unfold advanceRx
  rw [State.prepend_xfer, storeByte_prepend]
  split
  · rfl
  · cases storeByte s.xfer.rxCur s <;> rfl

theorem advanceTxrx_prepend : advanceTxrx (s.prepend p) = (advanceTxrx s).map (State.prepend p) := by
  unfold advanceTxrx
  rw [State.prepend_xfer, sendByte_prepend, storeByte_prepend]
  split
  · cases storeByte s.xfer.rxCur s <;> rfl
  · cases sendByte s.xfer.txCur s with
    | error f => rfl
    | ok t =>
      simp only [Except.map, storeByte_prepend, State.prepend_xfer]
      cases storeByte t.xfer.rxCur t <;> rfl

theorem advance_prepend : advance (s.prepend p) = (advance s).map (State.prepend p) := by
  unfold advance
  rw [State.prepend_xfer]
  split
  · rfl
  · exact advanceTx_prepend p s
  · exact advanceRx_prepend p s
  · exact advanceTxrx_prepend p s

theorem notify_prepend : notify (s.prepend p) = (notify s).map (State.prepend p) := by
  unfold notify
  rw [State.prepend_hook, State.prepend_par, emit_prepend]
  split
  · rfl
  · split <;> rfl

theorem interruptBody_prepend : interruptBody (s.prepend p) = (interruptBody s).map (State.prepend p) := by
  unfold interruptBody
  rw [interruptEntry_prepend, advance_prepend]
  cases advance (interruptEntry s) with
  | error f => rfl
  | ok t =>
    simp only [Except.map, notify_prepend]
    cases notify t <;> rfl

/-! ## Blocking commands -/

theorem issueBlocking_prepend (k : Kind) :
    issueBlocking k (s.prepend p) = (issueBlocking k s).map (State.prepend p) := by
  unfold issueBlocking
  rw [State.prepend_xfer, State.prepend_par, State.prepend_ie, State.prepend_arg]
  split
  · rfl
  · split
    · rfl
    · split
      · exact congrArg Except.ok (complete_prepend p (by rfl) k.instr .ok)
      · split
        · rfl
        · split <;> rfl

theorem startStep_prepend (k : Kind) : startStep k (s.prepend p) = (startStep k s).map (State.prepend p) := by
  unfold startStep
  rw [State.prepend_blk, regionRead_prepend]
  split
  · split
    · rfl
    · next b _ =>
      rw [dataWrite_prepend]
      cases dataWrite b s <;> rfl
  · rfl

theorem waitStep_prepend : waitStep (s.prepend p) = (waitStep s).prepend p := by
  unfold waitStep
  rw [State.prepend_tc, State.prepend_blk]
  split
  · rfl
  · split <;> simp [State.prepend]

theorem endByte_prepend (k : Kind) : endByte k (s.prepend p) = (endByte k s).prepend p := by
  unfold endByte
  rw [State.prepend_par, State.prepend_blk]
  dsimp only
  split
  · exact complete_prepend p (by rfl) _ _
  · rfl

theorem finishStep_prepend (k : Kind) :
    finishStep k (s.prepend p) = (finishStep k s).map (State.prepend p) := by
  unfold finishStep
  rw [State.prepend_blk, State.prepend_rxLatch, dataRead_prepend, regionWrite_prepend, endByte_prepend]
  split
  · cases regionWrite s.blk.rxb (s.blk.rxb + s.blk.n) (indexed s.blk.rxb s.blk.i) s.rxLatch (dataRead s) with
    | error f => rfl
    | ok t => exact congrArg Except.ok (endByte_prepend p t k)
  · rfl

theorem microStep_prepend (k : Kind) : microStep k (s.prepend p) = (microStep k s).map (State.prepend p) := by
  unfold microStep
  rw [State.prepend_blk]
  split
  · exact startStep_prepend p s k
  · exact congrArg Except.ok (waitStep_prepend p s)
  · exact finishStep_prepend p s k

/-! ## Commands -/

theorem completeArming_prepend (op : Instr) (r : Except Trap State) :
    completeArming op (r.map (State.prepend p)) = (completeArming op r).map (State.prepend p) := by
  cases r with
  | error f => rfl
  | ok t => exact congrArg Except.ok (complete_prepend p rfl op .ok)

theorem applyConfig_prepend (op : Instr) (g : Byte) :
    applyConfig op g (s.prepend p) = (applyConfig op g s).prepend p := by
  unfold applyConfig
  rw [abortExchange_prepend]
  exact complete_prepend p (by rfl) op .ok

theorem execTxAsync_prepend : execTxAsync (s.prepend p) = prependNext p (execTxAsync s) := by
  refine commit_prepend p ?_
  rw [State.prepend_xfer, State.prepend_arg, complete_prepend p rfl, complete_prepend p rfl, armTx_prepend,
    completeArming_prepend]
  split
  · rfl
  · split <;> rfl

theorem execRxAsync_prepend : execRxAsync (s.prepend p) = prependNext p (execRxAsync s) := by
  refine commit_prepend p ?_
  rw [State.prepend_xfer, State.prepend_arg, complete_prepend p rfl, armRx_prepend, completeArming_prepend]
  split <;> rfl

theorem execTxrxAsync_prepend : execTxrxAsync (s.prepend p) = prependNext p (execTxrxAsync s) := by
  refine commit_prepend p ?_
  rw [State.prepend_xfer, State.prepend_arg, complete_prepend p rfl, complete_prepend p rfl, armTxrx_prepend,
    completeArming_prepend]
  split
  · rfl
  · split <;> rfl

theorem exec_prepend (i : Instr) : exec i (s.prepend p) = prependNext p (exec i s) := by
  cases i with
  | init =>
    refine commit_prepend p ?_
    rw [State.prepend_arg, applyConfig_prepend]
    split <;> rfl
  | initCtrlDefault | initPeriphDefault => exact congrArg Host.Outcome.next (applyConfig_prepend p s _ _)
  | deinit | busDisable => exact next_complete_prepend p (by rw [abortExchange_prepend]; rfl) _ _
  | setHook | irqEnable | irqDisable | busEnable => exact next_complete_prepend p (by rfl) _ _
  | tx | rx | txrx => exact commit_prepend p (issueBlocking_prepend p s _)
  | txAsync => exact execTxAsync_prepend p s
  | rxAsync => exact execRxAsync_prepend p s
  | txrxAsync => exact execTxrxAsync_prepend p s

/-! ## Host operations and the foreground step -/

theorem hostWrite_prepend (r v : Nat) : hostWrite r v (s.prepend p) = prependNext p (hostWrite r v s) := by
  unfold hostWrite issueCommand
  split
  · split
    · exact exec_prepend p s _
    · exact commit_prepend p rfl
  · refine commit_prepend p ?_
    rw [State.prepend_par, State.prepend_arg]
    split <;> rfl

theorem readReg_prepend (r : Nat) : readReg (s.prepend p) r = readReg s r := rfl

theorem hostRead_prepend (r : Nat) : hostRead r (s.prepend p) = prependNext p (hostRead r s) := by
  refine commit_prepend p ?_
  rw [readReg_prepend]
  split
  · rw [emit_prepend]
    rfl
  · rfl

theorem inActiveTx_prepend (a : Nat) : inActiveTx (s.prepend p) a = inActiveTx s a := rfl

theorem inActiveRx_prepend (a : Nat) : inActiveRx (s.prepend p) a = inActiveRx s a := rfl

theorem hostMemWrite_prepend (a : Nat) (v : Byte) :
    hostMemWrite a v (s.prepend p) = prependNext p (hostMemWrite a v s) := by
  refine commit_prepend p ?_
  rw [memWrite_prepend, inActiveTx_prepend, inActiveRx_prepend]
  cases memWrite a v s with
  | error f => rfl
  | ok t =>
    simp only [Except.map]
    split <;> rfl

theorem memRead_prepend (a : Nat) : memRead a (s.prepend p) = memRead a s := rfl

theorem hostMemRead_prepend (a : Nat) : hostMemRead a (s.prepend p) = prependNext p (hostMemRead a s) := by
  refine commit_prepend p ?_
  rw [memRead_prepend, inActiveRx_prepend]
  split
  · rfl
  · split
    · rfl
    · rw [emit_prepend]
      rfl

theorem foregroundStep_prepend : foregroundStep (s.prepend p) = prependNext p (foregroundStep s) := by
  unfold foregroundStep
  rw [State.prepend_blk, State.prepend_ops, State.prepend_cpc]
  split
  · exact commit_prepend p (microStep_prepend p s _)
  · split
    · next op _ =>
      cases op with
      | hw r v => exact hostWrite_prepend p s r v
      | hr r => exact hostRead_prepend p s r
      | hmw a v => exact hostMemWrite_prepend p s a v
      | hmr a => exact hostMemRead_prepend p s a
    · rfl

/-! ## The step -/

theorem runMove_prepend (m : Move) : runMove m (s.prepend p) = prependNext p (runMove m s) := by
  cases m with
  | foreground => exact foregroundStep_prepend p s
  | interrupt => exact commit_prepend p (interruptBody_prepend p s)
  | exchangeDone b => exact congrArg Host.Outcome.next (completeExchange_prepend p s b)
  | peerStart => exact congrArg Host.Outcome.next (startExchange_prepend p s)
  | peerWait => rfl

theorem nextMove_prepend : nextMove (s.prepend p) = nextMove s := rfl

theorem stopReason_prepend : stopReason (s.prepend p) = stopReason s := rfl

theorem settleStep_prepend (r : Host.Outcome State Fault Refusal) :
    settleStep (prependNext p r) = prependNext p (settleStep r) := by
  cases r <;> rfl

/-- The step of a state with more events before its trace is its step, with those events before the trace. -/
theorem step_prepend : step (s.prepend p) = prependNext p (step s) := by
  unfold step
  rw [nextMove_prepend, stopReason_prepend]
  split
  · rw [runMove_prepend, settleStep_prepend]
  · rfl

end

theorem prependNext_eq_next {p : List Event} {r : Host.Outcome State Fault Refusal} {t : State} :
    prependNext p r = .next t ↔ ∃ u, r = .next u ∧ t = u.prepend p := by
  cases r <;> simp [prependNext, eq_comm]

/-- Every state is the one with its trace emptied, and its trace put back. -/
theorem prepend_of_empty (s : State) (tr : List Event) :
    { s with trace := tr } = ({ s with trace := [] } : State).prepend tr := by
  simp [State.prepend]

/-- Settles O13: the step from the emptied trace gives the events the step appends, and `step_prepend` puts any trace
before them. -/
theorem traceIsOnlyObserved : Obligations.TraceIsOnlyObserved := by
  unfold Obligations.TraceIsOnlyObserved
  intro s t hstep
  have hs : step (({ s with trace := [] } : State).prepend s.trace) = .next t := by rwa [← prepend_of_empty]
  rw [step_prepend] at hs
  obtain ⟨u, hu, rfl⟩ := prependNext_eq_next.1 hs
  refine ⟨u.trace, rfl, fun tr => ?_⟩
  rw [prepend_of_empty, step_prepend, hu]
  rfl

end Sys2Proof.Machine
end

section
/-! SUPPORT. The interrupt step of an async transfer whose regions exist: the cursor laws of the invariant keep every
access inside its region, so the advance answers (20_memory.md R64, 41_async.md R148). -/

namespace Sys2Proof.Machine

/-- The two ways a DataWrite raises no fault: no exchange in progress, or writes dropped (43_serial_engine.md R171). -/
def WriteAllowed (s : State) : Prop := s.xferBusy = false ∨ s.par.writeWhileBusy = .drop

/-- The regions of the buffers the mode uses exist (20_memory.md R61). -/
structure RegionsExist (s : State) : Prop where
  tx : s.xfer.mode.sends = true → ∀ a, s.ghost.txLo ≤ a → a < s.ghost.txHi → existsAt s.par a = true
  rx : s.xfer.mode.receives = true → ∀ a, s.ghost.rxLo ≤ a → a < s.ghost.rxHi → existsAt s.par a = true

theorem dataWrite_answers {s : State} (h : WriteAllowed s) (b : Byte) : ∃ t, dataWrite b s = .ok t := by
  cases hd : dataWrite b s with
  | ok t => exact ⟨t, rfl⟩
  | error f =>
    obtain ⟨hbusy, hpol, -⟩ := dataWrite_error hd
    rcases h with h | h
    · simp [h] at hbusy
    · simp [h] at hpol

theorem Mode.sends_iff {m : Mode} : m.sends = true ↔ m = .tx ∨ m = .txrx := by cases m <;> decide

theorem Mode.receives_iff {m : Mode} : m.receives = true ↔ m = .rx ∨ m = .txrx := by cases m <;> decide

theorem within_iff {lo hi a : Nat} : within lo hi a = true ↔ lo ≤ a ∧ a < hi := by simp [within]

theorem sendByte_answers {s : State} {a : Nat} (h : WriteAllowed s)
    (hw : within s.ghost.txLo s.ghost.txHi a = true) (he : existsAt s.par a = true) :
    ∃ t, sendByte a s = .ok t := by
  have hread : regionRead s.ghost.txLo s.ghost.txHi a s = .ok (Memory.read s.mem a) := regionRead_ok.2 ⟨hw, he, rfl⟩
  simpa only [sendByte, hread] using dataWrite_answers h _

theorem storeByte_answers {s : State} {a : Nat} (hw : within s.ghost.rxLo s.ghost.rxHi a = true)
    (he : existsAt s.par a = true) : ∃ t, storeByte a s = .ok t :=
  ⟨_, storeByte_ok.2 ⟨hw, he, rfl⟩⟩

/-! ## The cursors stand inside their regions (41_async.md R148) -/

section
variable {s : State} (h : Coherent s)
include h

theorem Coherent.txCur_within (hm : s.xfer.mode.sends = true) (hr : s.xfer.remaining ≠ 0) :
    within s.ghost.txLo s.ghost.txHi s.xfer.txCur = true := by
  obtain ⟨-, htx, -⟩ := h.transferOk
  obtain ⟨-, hcur⟩ := htx hm
  obtain ⟨hlo, hsum⟩ := hcur (Nat.pos_of_ne_zero hr)
  exact within_iff.2 ⟨hlo, by omega⟩

theorem Coherent.rxCur_within_rx (hm : s.xfer.mode = .rx) (hr : s.xfer.remaining ≠ 0) :
    within s.ghost.rxLo s.ghost.rxHi s.xfer.rxCur = true := by
  obtain ⟨hlo, hsum, -⟩ := (transferOk_rx hm).1 h.transferOk (Nat.pos_of_ne_zero hr)
  exact within_iff.2 ⟨hlo, by omega⟩

/-- In mode TxRx the last read is still to come when nothing remains (41_async.md R141). -/
theorem Coherent.rxCur_within_txrx (hm : s.xfer.mode = .txrx) :
    within s.ghost.rxLo s.ghost.rxHi s.xfer.rxCur = true := by
  obtain ⟨-, hlo, hsum, -⟩ := (transferOk_txrx hm).1 h.transferOk
  exact within_iff.2 ⟨hlo, by omega⟩

/-! ## The advance answers -/

variable (hreg : RegionsExist s)
include hreg

theorem Coherent.sendByte_txCur (hwr : WriteAllowed s) (hm : s.xfer.mode.sends = true)
    (hr : s.xfer.remaining ≠ 0) : ∃ t, sendByte s.xfer.txCur s = .ok t := by
  have hw := h.txCur_within hm hr
  obtain ⟨hlo, hhi⟩ := within_iff.1 hw
  exact sendByte_answers hwr hw (hreg.tx hm _ hlo hhi)

omit h in
theorem RegionsExist.storeByte_rxCur (hm : s.xfer.mode.receives = true)
    (hw : within s.ghost.rxLo s.ghost.rxHi s.xfer.rxCur = true) : ∃ t, storeByte s.xfer.rxCur s = .ok t := by
  obtain ⟨hlo, hhi⟩ := within_iff.1 hw
  exact storeByte_answers hw (hreg.rx hm _ hlo hhi)

theorem Coherent.advanceTx_answers (hwr : WriteAllowed s) (hm : s.xfer.mode = .tx) : ∃ t, advanceTx s = .ok t := by
  by_cases hr : s.xfer.remaining = 0
  · exact ⟨_, if_pos hr⟩
  · obtain ⟨u, hu⟩ := h.sendByte_txCur hreg hwr (Mode.sends_iff.2 (.inl hm)) hr
    simp [advanceTx, hr, hu]

theorem Coherent.advanceRx_answers (hm : s.xfer.mode = .rx) : ∃ t, advanceRx s = .ok t := by
  by_cases hr : s.xfer.remaining = 0
  · exact ⟨_, if_pos hr⟩
  · obtain ⟨u, hu⟩ := hreg.storeByte_rxCur (Mode.receives_iff.2 (.inl hm)) (h.rxCur_within_rx hm hr)
    simp [advanceRx, hr, hu]

theorem Coherent.advanceTxrx_answers (hwr : WriteAllowed s) (hm : s.xfer.mode = .txrx) :
    ∃ t, advanceTxrx s = .ok t := by
  have hrecv : s.xfer.mode.receives = true := Mode.receives_iff.2 (.inr hm)
  have hw := h.rxCur_within_txrx hm
  by_cases hr : s.xfer.remaining = 0
  · obtain ⟨u, hu⟩ := hreg.storeByte_rxCur hrecv hw
    simp [advanceTxrx, hr, hu]
  · obtain ⟨u, hu⟩ := h.sendByte_txCur hreg hwr (Mode.sends_iff.2 (.inr hm)) hr
    obtain ⟨-, -, hd⟩ := sendByte_ok hu
    obtain ⟨hp, hx, hg, -⟩ := dataWrite_keeps hd
    have hregU : RegionsExist u := ⟨by rw [hp, hx, hg]; exact hreg.tx, by rw [hp, hx, hg]; exact hreg.rx⟩
    obtain ⟨v, hv⟩ := hregU.storeByte_rxCur (hx ▸ hrecv) (by rw [hx, hg]; exact hw)
    simp [advanceTxrx, hr, hu, hv]

theorem Coherent.advance_answers (hwr : WriteAllowed s) : ∃ t, advance s = .ok t := by
  unfold advance
  split
  · exact ⟨s, rfl⟩
  · next hm => exact h.advanceTx_answers hreg hwr hm
  · next hm => exact h.advanceRx_answers hreg hm
  · next hm => exact h.advanceTxrx_answers hreg hwr hm

end

/-! ## The interrupt step answers -/

theorem notify_answers {s : State} (h : HookAllowed s) : ∃ t, notify s = .ok t := by
  by_cases hh : s.hook = 0
  · have hf : s.par.unsetHookFaults = false := h.resolve_left (not_not_intro hh)
    exact ⟨s, by simp [notify, hh, hf]⟩
  · exact ⟨_, if_pos hh⟩

/-- An interrupt body that raises no fault leaves S.fault as it was (60_exceptions.md R204). -/
theorem interruptBody_fault {s t : State} (h : interruptBody s = .ok t) : t.fault = s.fault := by
  obtain ⟨u, ha, hn⟩ := interruptBody_ok.1 h
  have hu : u.fault = s.fault := by rw [advance_frame ha]; rfl
  rcases notify_ok hn with ⟨-, rfl⟩ | ⟨-, -, rfl⟩ <;> exact hu

theorem Coherent.interruptBody_answers {s : State} (h : Coherent s) (hreg : RegionsExist s) (hwr : WriteAllowed s)
    (hhook : HookAllowed s) : ∃ t, interruptBody s = .ok t := by
  have hentry : Coherent (interruptEntry s) := (h.after_emit _).after_putTc false
  obtain ⟨u, hu⟩ := hentry.advance_answers ⟨hreg.tx, hreg.rx⟩ hwr
  have hhookU : HookAllowed u := by
    rw [advance_frame hu]
    exact hhook
  obtain ⟨t, ht⟩ := notify_answers hhookU
  exact ⟨t, interruptBody_ok.2 ⟨u, hu, ht⟩⟩

/-- Settles O17: the interrupt body answers, so the step commits its state, whose S.fault is the one before. -/
theorem asyncAccessesStayInRegion : Obligations.AsyncAccessesStayInRegion := by
  unfold Obligations.AsyncAccessesStayInRegion
  intro s h hfault hhook htx hrx hwr
  obtain ⟨t, ht⟩ := h.interruptBody_answers ⟨htx, hrx⟩ hwr hhook
  exact ⟨t, commit_next.2 (.inl ht), (interruptBody_fault ht).trans hfault⟩

end Sys2Proof.Machine
end

section
/-! SUPPORT. What writes S.mode, the cursors and S.remaining while bytes remain: no command, host operation or
micro-step does, as an arming command is then a no-op (41_async.md R123, 10_state.md R44). -/

namespace Sys2Proof.Machine

/-- A raised fault undoes the rest of its step, so a committed step keeps TransferState where its part does
(60_exceptions.md R216). -/
theorem xfer_of_commit {s t : State} {r : Except Trap State} (hc : commit s r = .next t)
    (hok : ∀ u, r = .ok u → u.xfer = s.xfer) : t.xfer = s.xfer := by
  rcases commit_next.1 hc with hr | ⟨f, -, rfl⟩
  · exact hok t hr
  · rfl

theorem abortExchange_xfer (s : State) : (abortExchange s).xfer = s.xfer := by rw [abortExchange_frame]

theorem applyConfig_xfer (op : Instr) (g : Byte) (s : State) : (applyConfig op g s).xfer = s.xfer :=
  abortExchange_xfer s

theorem issueBlocking_xfer {k : Kind} {s t : State} (h : issueBlocking k s = .ok t) : t.xfer = s.xfer := by
  rcases issueBlocking_ok h with ⟨-, rfl⟩ | ⟨-, -, -, -, rfl⟩ <;> rfl

theorem microStep_xfer {k : Kind} {s t : State} (h : microStep k s = .ok t) : t.xfer = s.xfer := by
  rw [microStep_frame h]

/-! ## Arming while bytes remain (41_async.md R123) -/

theorem execTxAsync_busy {s : State} (h : s.xfer.remaining ≠ 0) :
    execTxAsync s = .next (s.complete .txAsync .busyIgnored) := by
  simp only [execTxAsync, if_pos h, commit]

theorem execRxAsync_busy {s : State} (h : s.xfer.remaining ≠ 0) :
    execRxAsync s = .next (s.complete .rxAsync .busyIgnored) := by
  simp only [execRxAsync, if_pos h, commit]

theorem execTxrxAsync_busy {s : State} (h : s.xfer.remaining ≠ 0) :
    execTxrxAsync s = .next (s.complete .txrxAsync .busyIgnored) := by
  simp only [execTxrxAsync, if_pos h, commit]

section
variable {s t : State} (hr : s.xfer.remaining ≠ 0)
include hr

theorem exec_xfer {i : Instr} (h : exec i s = .next t) : t.xfer = s.xfer := by
  cases i with
  | init =>
    refine xfer_of_commit h fun u hu => ?_
    split at hu <;> cases hu
    exact applyConfig_xfer _ _ s
  | initCtrlDefault | initPeriphDefault =>
    cases h
    exact applyConfig_xfer _ _ s
  | deinit | busDisable =>
    cases h
    exact abortExchange_xfer s
  | setHook | irqEnable | irqDisable | busEnable =>
    cases h
    rfl
  | tx | rx | txrx => exact xfer_of_commit h fun _ => issueBlocking_xfer
  | txAsync =>
    cases (execTxAsync_busy hr).symm.trans h
    rfl
  | rxAsync =>
    cases (execRxAsync_busy hr).symm.trans h
    rfl
  | txrxAsync =>
    cases (execTxrxAsync_busy hr).symm.trans h
    rfl

theorem hostWrite_xfer {r v : Nat} (h : hostWrite r v s = .next t) : t.xfer = s.xfer := by
  unfold hostWrite issueCommand at h
  split at h
  · split at h
    · exact exec_xfer hr h
    · exact xfer_of_commit h nofun
  · refine xfer_of_commit h fun u hu => ?_
    split at hu <;> cases hu
    rfl

omit hr in
theorem hostRead_xfer {r : Nat} (h : hostRead r s = .next t) : t.xfer = s.xfer := by
  refine xfer_of_commit h fun u hu => ?_
  split at hu <;> cases hu
  rfl

omit hr in
theorem hostMemWrite_xfer {a : Nat} {v : Byte} (h : hostMemWrite a v s = .next t) : t.xfer = s.xfer := by
  refine xfer_of_commit h fun u hu => ?_
  split at hu
  · cases hu
  · next hw =>
    obtain ⟨-, rfl⟩ := memWrite_ok.1 hw
    split at hu <;> cases hu
    rfl

omit hr in
theorem hostMemRead_xfer {a : Nat} (h : hostMemRead a s = .next t) : t.xfer = s.xfer := by
  refine xfer_of_commit h fun u hu => ?_
  split at hu
  · cases hu
  · split at hu <;> cases hu
    rfl

theorem hostOpStep_xfer {op : HostOp} (h : hostOpStep op s = .next t) : t.xfer = s.xfer := by
  cases op with
  | hw r v => exact hostWrite_xfer hr h
  | hr r => exact hostRead_xfer h
  | hmw a v => exact hostMemWrite_xfer h
  | hmr a => exact hostMemRead_xfer h

theorem foregroundStep_xfer (h : foregroundStep s = .next t) : t.xfer = s.xfer := by
  unfold foregroundStep at h
  split at h
  · exact xfer_of_commit h fun _ => microStep_xfer
  · split at h
    · exact hostOpStep_xfer hr h
    · cases h

end

/-- Settles O46: the foreground keeps TransferState while bytes remain, and the Bus agent never writes it. -/
theorem onlyTheAdvanceWritesTransfer : Obligations.OnlyTheAdvanceWritesTransfer := by
  unfold Obligations.OnlyTheAdvanceWritesTransfer
  intro s t hr hstep hirq
  obtain ⟨m, u, hm, hrun, rfl⟩ := step_next.1 hstep
  rw [State.tickOn_xfer]
  cases m with
  | foreground => exact foregroundStep_xfer (Nat.ne_of_gt hr) hrun
  | interrupt => exact absurd hm hirq
  | exchangeDone b | peerStart | peerWait =>
    cases hrun
    rfl

end Sys2Proof.Machine
end

section
/-! SUPPORT. Host accesses to caller memory: an equation for each outcome (20_memory.md R62, R63, R68). -/

namespace Sys2Proof.Machine

theorem inActiveTx_iff {s : State} {a : Nat} : inActiveTx s a = true ↔
    (s.xfer.mode = .tx ∨ s.xfer.mode = .txrx) ∧ s.ghost.txLo ≤ a ∧ a < s.ghost.txHi := by
  rw [inActiveTx, Bool.and_eq_true, Mode.sends_iff, within_iff]

theorem inActiveRx_iff {s : State} {a : Nat} : inActiveRx s a = true ↔ ReadRace s a := by
  rw [inActiveRx, Bool.and_eq_true, Mode.receives_iff, within_iff]

theorem inActive_iff {s : State} {a : Nat} :
    inActiveTx s a = true ∨ inActiveRx s a = true ↔ WriteRace s a := by
  rw [inActiveTx_iff, inActiveRx_iff]

section
variable {s : State} {a : Nat}

theorem hostMemWrite_missing (v : Byte) (he : existsAt s.par a = false) :
    hostMemWrite a v s = .next (raiseFault ⟨.bufferRange, a⟩ s) := by
  simp [hostMemWrite, memWrite, he, commit]

theorem hostMemRead_missing (he : existsAt s.par a = false) :
    hostMemRead a s = .next (raiseFault ⟨.bufferRange, a⟩ s) := by
  simp [hostMemRead, memRead, he, commit]

variable (he : existsAt s.par a = true)
include he

theorem hostMemWrite_race (v : Byte) (h : WriteRace s a) :
    hostMemWrite a v s = .next (raiseFault ⟨.bufferRace, a⟩ s) := by
  simp only [hostMemWrite, memWrite, if_pos he, if_pos (inActive_iff.2 h), commit]

theorem hostMemRead_race (h : ReadRace s a) :
    hostMemRead a s = .next (raiseFault ⟨.bufferRace, a⟩ s) := by
  simp only [hostMemRead, memRead, if_pos he, if_pos (inActiveRx_iff.2 h), commit]

theorem hostMemWrite_stores (v : Byte) (h : ¬ WriteRace s a) :
    hostMemWrite a v s = .next { s with mem := Memory.write s.mem a v, cpc := s.cpc + 1 } := by
  simp only [hostMemWrite, memWrite, if_pos he, if_neg (mt inActive_iff.1 h), commit, State.nextOp]

theorem hostMemRead_emits (h : ¬ ReadRace s a) :
    hostMemRead a s = .next { s with
      cpc := s.cpc + 1, trace := s.trace ++ [.hostRdMem a (Memory.read s.mem a)] } := by
  simp only [hostMemRead, memRead, if_pos he, if_neg (mt inActiveRx_iff.1 h), commit, State.nextOp, State.emit]

end

/-- Settles O60: one equation for each outcome, and `Memory.read_write` for the byte written and the others. -/
theorem hostMemoryAccess : Obligations.HostMemoryAccess := by
  unfold Obligations.HostMemoryAccess
  intro s a v hwf
  refine ⟨fun he => hostMemWrite_race he v, hostMemRead_race, fun he _ => hostMemWrite_missing v he,
    fun he _ => hostMemRead_missing he, fun he h => ⟨_, hostMemWrite_stores he v h, rfl, ?_, fun x hx => ?_⟩,
    hostMemRead_emits⟩
  · exact (Memory.read_write hwf a v a).trans (if_pos rfl)
  · exact (Memory.read_write hwf a v x).trans (if_neg hx)

end Sys2Proof.Machine
end

section
/-! SUPPORT. The decoder and the encoder: the opcode map row by row, and what `decode` answers for every byte
(30_encoding.md R81 to R83). -/

namespace Sys2Proof

/-- The bytes of all commands keep to the field layout, from the per-command facts. -/
theorem encodeInOpcodeRange : ∀ i, Laws.EncodeInOpcodeRange.Statement i
  | .init => Laws.EncodeInOpcodeRange.init
  | .deinit => Laws.EncodeInOpcodeRange.deinit
  | .initCtrlDefault => Laws.EncodeInOpcodeRange.initCtrlDefault
  | .initPeriphDefault => Laws.EncodeInOpcodeRange.initPeriphDefault
  | .tx => Laws.EncodeInOpcodeRange.tx
  | .rx => Laws.EncodeInOpcodeRange.rx
  | .txrx => Laws.EncodeInOpcodeRange.txrx
  | .txAsync => Laws.EncodeInOpcodeRange.txAsync
  | .rxAsync => Laws.EncodeInOpcodeRange.rxAsync
  | .txrxAsync => Laws.EncodeInOpcodeRange.txrxAsync
  | .setHook => Laws.EncodeInOpcodeRange.setHook
  | .irqEnable => Laws.EncodeInOpcodeRange.irqEnable
  | .irqDisable => Laws.EncodeInOpcodeRange.irqDisable
  | .busEnable => Laws.EncodeInOpcodeRange.busEnable
  | .busDisable => Laws.EncodeInOpcodeRange.busDisable

/-- A byte is the byte of the command whose opcode it holds, where its RSV field is zero. -/
theorem eq_encode_iff {c : Byte} {i : Instr} : c = encode i ↔ fieldRsv c = 0#4 ∧ fieldOp c = i.opcode := by
  constructor
  · rintro rfl
    obtain ⟨hrsv, hop, -⟩ := encodeInOpcodeRange i
    exact ⟨hrsv, hop⟩
  · rintro ⟨hrsv, hop⟩
    calc c = fieldRsv c ++ fieldOp c := (BitVec.extractLsb'_append_extractLsb' (w := 4) (len := 4)).symm
      _ = encode i := by rw [hrsv, hop]; rfl

/-- The rows of the opcode map are the commands, each with its opcode. -/
theorem lookup_opcodeMap_iff {o : BitVec 4} {i : Instr} : opcodeMap.lookup o = some i ↔ i.opcode = o := by
  constructor
  · intro h
    have rows : ∀ r ∈ opcodeMap, r.2.opcode = r.1 := by decide
    obtain ⟨_, _, hmap, -⟩ := List.lookup_eq_some_iff.1 h
    exact rows (o, i) (by simp [hmap])
  · rintro rfl
    cases i <;> rfl

theorem opcode_injective {i j : Instr} (h : j.opcode = i.opcode) : j = i :=
  Option.some.inj ((lookup_opcodeMap_iff.2 h).symm.trans (lookup_opcodeMap_iff.2 rfl))

/-- Every opcode but 0x0 is a command's. -/
theorem exists_opcode_eq {o : BitVec 4} (h : o ≠ 0#4) : ∃ i : Instr, i.opcode = o := by
  have hsome : (opcodeMap.lookup o).isSome = true := by
    revert o
    decide
  obtain ⟨i, hi⟩ := Option.isSome_iff_exists.1 hsome
  exact ⟨i, lookup_opcodeMap_iff.1 hi⟩

theorem decode_eq_ok_iff {c : Byte} {i : Instr} : decode c = .ok i ↔ c = encode i := by
  rw [eq_encode_iff, decode, eq_comm (a := fieldOp c), ← lookup_opcodeMap_iff]
  by_cases hrsv : fieldRsv c = 0#4
  · cases hop : opcodeMap.lookup (fieldOp c) <;> simp [hrsv]
  · simp [hrsv]

@[simp] theorem decode_encode (i : Instr) : decode (encode i) = .ok i := decode_eq_ok_iff.2 rfl

theorem decode_of_rsv_ne_zero {c : Byte} (h : fieldRsv c ≠ 0#4) : decode c = .error .reservedBits := if_pos h

theorem decode_of_op_zero {c : Byte} (hrsv : fieldRsv c = 0#4) (hop : fieldOp c = 0#4) :
    decode c = .error .reservedOpcode := by
  have hnone : opcodeMap.lookup (0#4) = none := rfl
  simp [decode, hrsv, hop, hnone]

/-- Settles O3: `decode` answers a command exactly at that command's byte. -/
theorem decodeEncodeAgree : Obligations.DecodeEncodeAgree := by
  unfold Obligations.DecodeEncodeAgree
  exact ⟨decode_encode, fun _ _ => decode_eq_ok_iff.1⟩

/-- Settles O1: each literal byte is the byte `encode` gives its command. -/
theorem commandBytesDecode : Obligations.CommandBytesDecode := by
  unfold Obligations.CommandBytesDecode
  exact ⟨decode_encode .init, decode_encode .deinit, decode_encode .initCtrlDefault, decode_encode .initPeriphDefault,
    decode_encode .tx, decode_encode .rx, decode_encode .txrx, decode_encode .txAsync, decode_encode .rxAsync,
    decode_encode .txrxAsync, decode_encode .setHook, decode_encode .irqEnable, decode_encode .irqDisable,
    decode_encode .busEnable, decode_encode .busDisable⟩

end Sys2Proof
end

section
/-! SUPPORT. A write to CMD: what it runs, in a step and on its own (30_encoding.md R82, 42_control.md R162, R164). -/

namespace Sys2Proof.Machine

theorem hostWrite_cmd_of_command {v : Nat} {i : Instr} (h : decode (BitVec.ofNat 8 v) = .ok i) (s : State) :
    hostWrite 3 v s = exec i s := by
  simp [hostWrite, issueCommand, h]

theorem hostWrite_cmd_of_error {v : Nat} {e : DecodeError} (h : decode (BitVec.ofNat 8 v) = .error e) (s : State) :
    hostWrite 3 v s = .next (raiseFault ⟨.illegalCommand, v % 256⟩ s) := by
  simp [hostWrite, issueCommand, h, commit]

/-- Settles O2: the two ways a byte can be no command each decode to an error, and a non-zero opcode under a zero RSV
field is the opcode of one command only. -/
theorem decodeIsTotal : Obligations.DecodeIsTotal := by
  unfold Obligations.DecodeIsTotal
  intro v s
  refine ⟨fun hrsv => hostWrite_cmd_of_error (decode_of_rsv_ne_zero hrsv) s,
    fun hrsv hop => hostWrite_cmd_of_error (decode_of_op_zero hrsv hop) s, fun hrsv hop => ?_⟩
  obtain ⟨i, hi⟩ := exists_opcode_eq hop
  have hdec : decode (BitVec.ofNat 8 v) = .ok i := decode_eq_ok_iff.2 (eq_encode_iff.2 ⟨hrsv, hi.symm⟩)
  exact ⟨i, hi, hostWrite_cmd_of_command hdec s, fun j hj => opcode_injective (hj.trans hi.symm)⟩

theorem step_of_nextMove {s : State} {m : Move} (h : nextMove s = some m) : step s = settleStep (runMove m s) := by
  rw [step, h]

/-- With no blocking command in progress the foreground runs the operation at the command pointer. -/
theorem foregroundStep_of_fetch {s : State} {op : HostOp} (hk : s.blk.kind = none) (hop : s.ops[s.cpc]? = some op) :
    foregroundStep s = hostOpStep op s := by
  simp [foregroundStep, hk, hop]

theorem step_of_command {s : State} {v : Nat} {i : Instr} (hm : nextMove s = some .foreground)
    (hk : s.blk.kind = none) (hop : s.ops[s.cpc]? = some (.hw 3 v)) (hdec : decode (BitVec.ofNat 8 v) = .ok i) :
    step s = settleStep (exec i s) :=
  calc step s = settleStep (foregroundStep s) := step_of_nextMove hm
    _ = settleStep (hostWrite 3 v s) := congrArg settleStep (foregroundStep_of_fetch hk hop)
    _ = settleStep (exec i s) := congrArg settleStep (hostWrite_cmd_of_command hdec s)

/-- Settles O5: `step_of_command`, and `settleStep` of a next state moves the model's own fields on. -/
theorem stepRunsDecodedCommand : Obligations.StepRunsDecodedCommand := by
  unfold Obligations.StepRunsDecodedCommand
  intro s v i hm hk hop hdec
  have hstep := step_of_command hm hk hop hdec
  refine ⟨hstep, fun t ht => ?_⟩
  rw [hstep, ht]
  rfl

@[simp] theorem getElem?_placeOp (op : HostOp) (ops : List HostOp) (k : Nat) : (placeOp op ops k)[k]? = some op := by
  induction k generalizing ops with
  | zero => cases ops <;> rfl
  | succ k ih =>
    cases ops with
    | nil => exact ih []
    | cons o rest => exact ih rest

/-- The placed operation is one the foreground has, and no fault is left, so the scheduled foreground is next. -/
theorem nextMove_withFetchWord (s : State) (nbits w : Nat) :
    nextMove (s.withFetchWord nbits w) = some .foreground := by
  obtain ⟨hlt, -⟩ := List.getElem?_eq_some_iff.1 (getElem?_placeOp (.hw 3 (w % 2 ^ nbits)) s.ops s.cpc)
  exact if_pos (by simp [enabled, foregroundEnabled, State.withFetchWord, hlt])

/-- Settles O6: the foreground is next, no blocking command is in progress, and the placed operation, at the command
pointer, is the write of the command's byte. -/
theorem fetchedWordRuns : Obligations.FetchedWordRuns := by
  unfold Obligations.FetchedWordRuns
  intro s i
  have hbyte : BitVec.ofNat 8 ((encode i).toNat % 2 ^ 8) = encode i := by
    rw [Nat.mod_eq_of_lt (encode i).isLt, BitVec.ofNat_toNat, BitVec.setWidth_eq]
  exact step_of_command (nextMove_withFetchWord s 8 _) rfl (getElem?_placeOp _ _ _)
    ((congrArg decode hbyte).trans (decode_encode i))

end Sys2Proof.Machine
end

section
/-! SUPPORT. Assembler text: a line of one word, and the command a mnemonic names (30_encoding.md R90, R91). -/

namespace Sys2Proof.Machine

/-- Characters with no separator among them go on the word being read. -/
theorem readWords_of_no_separator {cs : List Char} (h : ∀ c ∈ cs, isSeparator c = false) (w : List Char) :
    readWords cs w = if (w ++ cs).isEmpty then [] else [w ++ cs] := by
  induction cs generalizing w with
  | nil => simp [readWords]
  | cons c cs ih =>
    obtain ⟨hc, hcs⟩ := List.forall_mem_cons.1 h
    simp [readWords, hc, ih hcs]

/-- A line that is one word stands for the operation of that word. -/
theorem readLine_of_word {line : String} (hne : line.toList ≠ [])
    (h : ∀ c ∈ line.toList, (c != ';') = true ∧ isSeparator c = false) :
    readLine line = readOperation [line.toList] := by
  have hcomment : dropComment line.toList = line.toList := List.takeWhile_eq_self_iff.2 fun c hc => (h c hc).1
  rw [readLine, hcomment, readWords_of_no_separator fun c hc => (h c hc).2]
  simp [hne]

/-- A mnemonic is one word: it has a character, and none begins a comment or separates words. -/
theorem mnemonic_is_word (i : Instr) : (mnemonic i).toList ≠ [] ∧
    ∀ c ∈ (mnemonic i).toList, (c != ';') = true ∧ isSeparator c = false := by
  cases i <;> simp [mnemonic, isSeparator]

@[simp] theorem readMnemonic_mnemonic (i : Instr) : readMnemonic (mnemonic i).toList = some i := by
  cases i <;> decide

/-- No mnemonic is one of the four host operations' names. -/
theorem readOperation_mnemonic (i : Instr) (ws : List (List Char)) :
    readOperation ((mnemonic i).toList :: ws) = readCommand (mnemonic i).toList ws := by
  have hnames : (mnemonic i).toList ∉ ["HW", "HR", "HMW", "HMR"].map String.toList := by cases i <;> decide
  simp only [List.map_cons, List.map_nil, List.mem_cons, not_or] at hnames
  obtain ⟨hhw, hhr, hhmw, hhmr, -⟩ := hnames
  simp only [readOperation, beq_iff_eq, if_neg hhw, if_neg hhr, if_neg hhmw, if_neg hhmr]

theorem readLine_mnemonic (i : Instr) : readLine (mnemonic i) = some [commandWrite i] := by
  obtain ⟨hne, hword⟩ := mnemonic_is_word i
  rw [readLine_of_word hne hword, readOperation_mnemonic, readCommand, readMnemonic_mnemonic]

/-- Settles O4: a mnemonic is a word of its own that names its command, and each expansion is a row of
`Pseudo.expand` with the command's byte evaluated. -/
theorem mnemonicsAndPseudoInstructions : Obligations.MnemonicsAndPseudoInstructions := by
  unfold Obligations.MnemonicsAndPseudoInstructions
  refine ⟨readLine_mnemonic, fun a b n t g k => ?_⟩
  exact ⟨rfl, rfl, rfl, rfl, rfl, rfl, rfl, rfl, rfl, rfl, rfl, rfl, rfl, rfl, rfl⟩

end Sys2Proof.Machine
end

section
/-! SUPPORT. The issue of TX, RX and TXRX: an equation for each outcome, in the order of the checks (40_blocking.md
R103). -/

namespace Sys2Proof.Machine

/-- TX, RX and TXRX are one issue step, at the three kinds. -/
theorem exec_blocking (k : Kind) (s : State) : exec k.instr s = commit s (issueBlocking k s) := by
  cases k <;> rfl

theorem Kind.sends_iff {k : Kind} : k.sends = true ↔ k ≠ .rx := by cases k <;> decide

theorem Kind.receives_iff {k : Kind} : k.receives = true ↔ k ≠ .tx := by cases k <;> decide

theorem regionFits_iff {p : Params} {a n : Nat} : regionFits p a n = true ↔ a + n ≤ 2 ^ p.addrBits :=
  decide_eq_true_iff

/-- No async transfer is active or has bytes left, and if strict the interrupt is masked: the first two checks of an
issue pass (40_blocking.md R103). -/
structure IssueAdmitted (s : State) : Prop where
  mode : s.xfer.mode = .idle
  remaining : s.xfer.remaining = 0
  masked : s.par.strictBlockingIe = false ∨ s.ie = false

section
variable {k : Kind} {s : State}

theorem issueBlocking_active (h : s.xfer.mode ≠ .idle ∨ s.xfer.remaining ≠ 0) :
    issueBlocking k s = .error ⟨.blockingWhileAsyncActive, (encode k.instr).toNat⟩ := if_pos h

theorem issueBlocking_unmasked (hm : s.xfer.mode = .idle) (hr : s.xfer.remaining = 0)
    (hstrict : s.par.strictBlockingIe = true) (hie : s.ie = true) :
    issueBlocking k s = .error ⟨.blockingWithIrqEnabled, (encode k.instr).toNat⟩ := by
  simp [issueBlocking, hm, hr, hstrict, hie]

/-- An admitted issue goes on to the size and the buffers. -/
theorem IssueAdmitted.issueBlocking_eq (h : IssueAdmitted s) :
    issueBlocking k s =
      if s.arg.size = 0 then .ok ({ s with toCount := 0 }.complete k.instr .ok)
      else if k.sends ∧ ¬ regionFits s.par s.arg.tx s.arg.size then .error ⟨.bufferRange, s.arg.tx⟩
      else if k.receives ∧ ¬ regionFits s.par s.arg.rx s.arg.size then .error ⟨.bufferRange, s.arg.rx⟩
      else .ok { s with blk := latchBlocking k s.arg s.blk } := by
  obtain ⟨hm, hr, hmask⟩ := h
  have hidle : ¬ (s.xfer.mode ≠ .idle ∨ s.xfer.remaining ≠ 0) := by simp [hm, hr]
  have hmasked : ¬ (s.par.strictBlockingIe = true ∧ s.ie = true) := by
    rcases hmask with h | h <;> simp [h]
  rw [issueBlocking, if_neg hidle, if_neg hmasked]

theorem IssueAdmitted.completes (h : IssueAdmitted s) (hn : s.arg.size = 0) :
    issueBlocking k s = .ok ({ s with toCount := 0 }.complete k.instr .ok) :=
  h.issueBlocking_eq.trans (if_pos hn)

variable (h : IssueAdmitted s) (hn : s.arg.size ≠ 0)
include h hn

theorem IssueAdmitted.txRange (hk : k ≠ .rx) (hbig : 2 ^ s.par.addrBits < s.arg.tx + s.arg.size) :
    issueBlocking k s = .error ⟨.bufferRange, s.arg.tx⟩ := by
  rw [h.issueBlocking_eq, if_neg hn, if_pos ⟨Kind.sends_iff.2 hk, mt regionFits_iff.1 (Nat.not_le.2 hbig)⟩]

variable (htx : k ≠ .rx → s.arg.tx + s.arg.size ≤ 2 ^ s.par.addrBits)
include htx

/-- With the transmit buffer inside the address space only the receive buffer is left to check. -/
theorem IssueAdmitted.issueBlocking_of_txFits :
    issueBlocking k s =
      if k.receives ∧ ¬ regionFits s.par s.arg.rx s.arg.size then .error ⟨.bufferRange, s.arg.rx⟩
      else .ok { s with blk := latchBlocking k s.arg s.blk } := by
  have hfit : ¬ (k.sends = true ∧ ¬ regionFits s.par s.arg.tx s.arg.size = true) :=
    fun ⟨hk, hnofit⟩ => hnofit (regionFits_iff.2 (htx (Kind.sends_iff.1 hk)))
  rw [h.issueBlocking_eq, if_neg hn, if_neg hfit]

theorem IssueAdmitted.rxRange (hk : k ≠ .tx) (hbig : 2 ^ s.par.addrBits < s.arg.rx + s.arg.size) :
    issueBlocking k s = .error ⟨.bufferRange, s.arg.rx⟩ :=
  (h.issueBlocking_of_txFits hn htx).trans
    (if_pos ⟨Kind.receives_iff.2 hk, mt regionFits_iff.1 (Nat.not_le.2 hbig)⟩)

theorem IssueAdmitted.latches (hrx : k ≠ .tx → s.arg.rx + s.arg.size ≤ 2 ^ s.par.addrBits) :
    issueBlocking k s = .ok { s with blk := latchBlocking k s.arg s.blk } :=
  (h.issueBlocking_of_txFits hn htx).trans
    (if_neg fun ⟨hk, hnofit⟩ => hnofit (regionFits_iff.2 (hrx (Kind.receives_iff.1 hk))))

end

/-- Settles O26: one equation of the issue step for each clause, committed. -/
theorem blockingIssue : Obligations.BlockingIssue := by
  unfold Obligations.BlockingIssue
  refine ⟨decode_encode .tx, decode_encode .rx, decode_encode .txrx, fun k s => ?_⟩
  rw [exec_blocking]
  refine ⟨fun hact => congrArg (commit s) (issueBlocking_active hact), fun hm hr => ⟨fun hstrict hie =>
    congrArg (commit s) (issueBlocking_unmasked hm hr hstrict hie), fun hmask => ?_⟩⟩
  have h : IssueAdmitted s := ⟨hm, hr, hmask⟩
  refine ⟨fun hn => congrArg (commit s) (h.completes hn),
    fun hn hk hbig => congrArg (commit s) (h.txRange (Nat.ne_of_gt hn) hk hbig),
    fun hn htx hk hbig => congrArg (commit s) (h.rxRange (Nat.ne_of_gt hn) htx hk hbig), fun hn htx hrx => ?_⟩
  refine ⟨_, congrArg (commit s) (h.latches (Nat.ne_of_gt hn) htx hrx), rfl, rfl, rfl, rfl, fun hk => ?_, fun hk => ?_,
    rfl, rfl, rfl⟩
  · exact if_pos (Kind.sends_iff.2 hk)
  · exact if_pos (Kind.receives_iff.2 hk)

end Sys2Proof.Machine
end

section
/-! SUPPORT. The micro-steps of a blocking command: an equation for each outcome of Start, Wait and Finish
(40_blocking.md R104 to R106), and the Wait run to the end of its budget (R108, R109). -/

namespace Sys2Proof.Machine

/-- A blocking command in progress holds the foreground (40_blocking.md R111). -/
theorem foregroundStep_of_kind {k : Kind} {s : State} (hk : s.blk.kind = some k) :
    foregroundStep s = commit s (microStep k s) := by
  rw [foregroundStep, hk]

section
variable {s : State} (k : Kind)

theorem microStep_of_start (hp : s.blk.phase = .start) : microStep k s = startStep k s := by rw [microStep, hp]

theorem microStep_of_wait (hp : s.blk.phase = .wait) : microStep k s = .ok (waitStep s) := by rw [microStep, hp]

theorem microStep_of_finish (hp : s.blk.phase = .finish) : microStep k s = finishStep k s := by rw [microStep, hp]

end

/-! ## Accesses (20_memory.md R62 to R64, 43_serial_engine.md R171, R172) -/

theorem setBit_tc_false (v : Byte) : setBit v 7 false = tcCleared v := rfl

theorem dataWrite_accepted (b : Byte) {s : State} (h : s.xferBusy = false) :
    dataWrite b s = .ok (acceptedWrite b s) := by
  rw [dataWrite_idle h]
  cases hon : s.en && s.role <;>
    simp [acceptedWrite, startExchange, loadShift, setBit_tc_false, hon, h]

theorem dataWrite_dropped (b : Byte) {s : State} (h : s.xferBusy = true) (hpol : s.par.writeWhileBusy = .drop) :
    dataWrite b s = .ok (s.emit (.dataWr b false)) := by
  simp [dataWrite, h, hpol]

theorem dataWrite_faults (b : Byte) {s : State} (h : s.xferBusy = true) (hpol : s.par.writeWhileBusy = .fault) :
    dataWrite b s = .error ⟨.writeWhileBusy, b.toNat⟩ := by
  simp [dataWrite, h, hpol]

/-- The slot of a byte below the size lies in its buffer (20_memory.md R64, R66). -/
theorem within_indexed {b i n : Nat} (h : i < n) : within b (b + n) (indexed b i) = true :=
  within_iff.2 ⟨Nat.le_add_right b i, Nat.add_lt_add_left h b⟩

section
variable {s : State} {lo hi a : Nat} (hw : within lo hi a = true)
include hw

theorem regionRead_missing (he : existsAt s.par a = false) : regionRead lo hi a s = .error ⟨.bufferRange, a⟩ := by
  simp [regionRead, memRead, hw, he]

theorem regionWrite_missing (v : Byte) (he : existsAt s.par a = false) :
    regionWrite lo hi a v s = .error ⟨.bufferRange, a⟩ := by
  simp [regionWrite, memWrite, hw, he]

end

/-! ## Start (40_blocking.md R105) -/

section
variable {k : Kind} {s : State}

theorem startStep_rx (s : State) : startStep .rx s = .ok (beginWait s) := rfl

variable (hk : k ≠ .rx) (hi : s.blk.i < s.blk.n)
include hk hi

theorem startStep_missing (he : existsAt s.par (s.blk.txb + s.blk.i) = false) :
    startStep k s = .error ⟨.bufferRange, s.blk.txb + s.blk.i⟩ := by
  rw [startStep, if_pos (Kind.sends_iff.2 hk), regionRead_missing (within_indexed hi) he]
  rfl

variable (he : existsAt s.par (s.blk.txb + s.blk.i) = true)
include he

/-- A byte that exists is written to DATA before the wait begins. -/
theorem startStep_sends :
    startStep k s = (dataWrite (Memory.read s.mem (s.blk.txb + s.blk.i)) s).map beginWait := by
  rw [startStep, if_pos (Kind.sends_iff.2 hk), regionRead_ok.2 ⟨within_indexed hi, he, rfl⟩]
  cases hd : dataWrite (Memory.read s.mem (s.blk.txb + s.blk.i)) s <;> simp [indexed, hd, Except.map]

end

/-- Settles O27: the DataWrite of the byte has three outcomes, and `beginWait` loads the timer after it. -/
theorem startLoadsByteAndTimer : Obligations.StartLoadsByteAndTimer := by
  unfold Obligations.StartLoadsByteAndTimer
  intro k s hk hp
  rw [foregroundStep_of_kind hk, microStep_of_start k hp]
  refine ⟨?_, fun hsend hi => ⟨fun he => ?_, fun he hbusy => ?_, fun he hbusy hpol => ?_, fun he hbusy hpol => ?_⟩⟩
  · rintro rfl
    exact congrArg (commit s) (startStep_rx s)
  · rw [startStep_missing hsend hi he]
    rfl
  · rw [startStep_sends hsend hi he, dataWrite_accepted _ hbusy]
    rfl
  · rw [startStep_sends hsend hi he, dataWrite_dropped _ hbusy hpol]
    rfl
  · rw [startStep_sends hsend hi he, dataWrite_faults _ hbusy hpol]
    rfl

/-! ## Wait (40_blocking.md R104) -/

section
variable {s : State}

theorem waitStep_done (htc : s.tc = true) : waitStep s = { s with blk := { s.blk with phase := .finish } } :=
  if_pos htc

variable (htc : s.tc = false)
include htc

theorem waitStep_late (ht : s.blk.t = 0) :
    waitStep s = { s with
      blk := { s.blk with late := (s.blk.late + 1) % 2 ^ s.par.sizeBits, phase := .finish }
      trace := s.trace ++ [.timedOut s.blk.i] } := by
  simp [waitStep, htc, ht, incr, truncTo]

theorem waitStep_spin (ht : s.blk.t ≠ 0) :
    waitStep s = { s with blk := { s.blk with t := s.blk.t - 1 }, trace := s.trace ++ [.spin s.blk.i s.blk.t] } := by
  simp [waitStep, htc, ht]

/-- With TC = 0 the spins count the budget down to 1 and the byte is then late: induction on the budget. -/
theorem waitSteps_budget {n : Nat} (ht : s.blk.t = n) :
    waitSteps (n + 1) s = { s with
      blk := { s.blk with t := 0, late := (s.blk.late + 1) % 2 ^ s.par.sizeBits, phase := .finish }
      trace := s.trace ++ (List.range n).map (fun j => Event.spin s.blk.i (n - j)) ++ [.timedOut s.blk.i] } := by
  induction n generalizing s with
  | zero =>
    rw [waitSteps, waitSteps, waitStep_late htc ht]
    simp [← ht]
  | succ n ih =>
    have hspin := waitStep_spin htc (by omega : s.blk.t ≠ 0)
    rw [waitSteps, hspin, ih (by exact htc) (by simp [ht])]
    simp [ht, List.range_succ_eq_map, Function.comp_def]

end

/-- Settles O28: the three equations of the Wait micro-step. -/
theorem waitTestsFlagThenBudget : Obligations.WaitTestsFlagThenBudget := by
  unfold Obligations.WaitTestsFlagThenBudget
  intro k s hk hp
  rw [foregroundStep_of_kind hk, microStep_of_wait k hp]
  exact ⟨fun htc => congrArg Host.Outcome.next (waitStep_done htc),
    fun htc ht => congrArg Host.Outcome.next (waitStep_late htc ht),
    fun htc ht => congrArg Host.Outcome.next (waitStep_spin htc ht)⟩

/-- Settles O31: `waitSteps_budget` at the whole budget. -/
theorem waitEndsWithinBudget : Obligations.WaitEndsWithinBudget := by
  unfold Obligations.WaitEndsWithinBudget
  exact fun s htc _ => waitSteps_budget htc rfl

/-! ## Finish (40_blocking.md R106) -/

section
variable {k : Kind} {s : State}

/-- The byte of a DataRead is stored at its slot before the byte ends. -/
theorem finishStep_stores (hk : k ≠ .tx) (hi : s.blk.i < s.blk.n)
    (he : existsAt s.par (s.blk.rxb + s.blk.i) = true) :
    finishStep k s =
      .ok (endByte k { readDone s with mem := Memory.write s.mem (s.blk.rxb + s.blk.i) s.rxLatch }) := by
  rw [finishStep, if_pos (Kind.receives_iff.2 hk), (regionWrite_ok (s := dataRead s)).2 ⟨within_indexed hi, he, rfl⟩]
  rfl

theorem finishStep_tx (s : State) : finishStep .tx s = .ok (endByte .tx s) := rfl

theorem finishStep_missing (hk : k ≠ .tx) (hi : s.blk.i < s.blk.n)
    (he : existsAt s.par (s.blk.rxb + s.blk.i) = false) :
    finishStep k s = .error ⟨.bufferRange, s.blk.rxb + s.blk.i⟩ := by
  rw [finishStep, if_pos (Kind.receives_iff.2 hk), regionWrite_missing (s := dataRead s) (within_indexed hi) _ he]
  rfl

variable (hinc : s.blk.i + 1 < 2 ^ s.par.sizeBits)
include hinc

theorem endByte_next (hne : s.blk.i + 1 ≠ s.blk.n) :
    endByte k s = { s with blk := { s.blk with i := s.blk.i + 1, phase := .start } } := by
  simp only [endByte, incr_of_lt hinc, if_neg hne]

theorem endByte_last (hlast : s.blk.i + 1 = s.blk.n) :
    endByte k s = { s with
      blk := { s.blk with i := s.blk.i + 1, kind := none }
      toCount := s.blk.late
      result := if 0 < s.blk.late then 0x01#8 else 0x00#8
      trace := s.trace ++ [.done k.instr (if 0 < s.blk.late then .timedOut else .ok)]
      cpc := s.cpc + 1 } := by
  simp only [endByte, incr_of_lt hinc, if_pos hlast, State.complete, blockingResult]
  split <;> rfl

end

/-- Settles O29: a Finish is `endByte` of the state `r` that its access leaves, and `r` keeps the blocking engine. -/
theorem finishStoresAndAdvances : Obligations.FinishStoresAndAdvances := by
  unfold Obligations.FinishStoresAndAdvances
  intro k s r hk hp hi hn
  rw [foregroundStep_of_kind hk, microStep_of_finish k hp]
  have hinc : s.blk.i + 1 < 2 ^ s.par.sizeBits := by omega
  refine ⟨fun hrecv he => congrArg (commit s) (finishStep_missing hrecv hi he), ?_⟩
  rintro (⟨rfl, rfl⟩ | ⟨hrecv, he, rfl⟩)
  · rw [finishStep_tx]
    exact ⟨fun hne => congrArg Host.Outcome.next (endByte_next hinc hne),
      fun hlast => congrArg Host.Outcome.next (endByte_last hinc hlast)⟩
  · rw [finishStep_stores hrecv hi he]
    exact ⟨fun hne => congrArg Host.Outcome.next (endByte_next hinc hne),
      fun hlast => congrArg Host.Outcome.next (endByte_last hinc hlast)⟩

end Sys2Proof.Machine
end

section
/-! SUPPORT. How many DATA accesses a blocking command has made: each micro-step adds the ones its progress stands for,
and no other agent adds any (40_blocking.md R107). -/

namespace Sys2Proof.Machine

@[simp] theorem dataWrites_append (es fs : List Event) : dataWrites (es ++ fs) = dataWrites es ++ dataWrites fs :=
  List.filterMap_append

@[simp] theorem dataReads_append (es fs : List Event) : dataReads (es ++ fs) = dataReads es ++ dataReads fs :=
  List.filterMap_append

theorem dataWrites_append_done (es : List Event) (op : Instr) (res : Result) :
    dataWrites (es ++ [.done op res]) = dataWrites es := by
  simp [dataWrites]

theorem dataReads_append_done (es : List Event) (op : Instr) (res : Result) :
    dataReads (es ++ [.done op res]) = dataReads es := by
  simp [dataReads]

/-- A DataRead is one DataRd event (43_serial_engine.md R172). -/
theorem dataRead_counts (s : State) :
    dataWrites (dataRead s).trace = dataWrites s.trace ∧
      dataReads (dataRead s).trace = dataReads s.trace ++ [s.rxLatch] := by
  simp [dataWrites, dataReads]

/-- An answered DataWrite, accepted or dropped, is one DataWr event (43_serial_engine.md R171). -/
theorem dataWrite_counts {b : Byte} {s t : State} (h : dataWrite b s = .ok t) :
    dataWrites t.trace = dataWrites s.trace ++ [b] ∧ dataReads t.trace = dataReads s.trace := by
  rcases dataWrite_ok h with ⟨-, -, rfl⟩ | ⟨-, -, -, rfl⟩ | ⟨-, -, rfl⟩ <;> simp [dataWrites, dataReads]

/-- A blocking command of kind `k` is in progress, and the trace holds as many DataWrites and DataReads, beyond `w` and
`r`, as its progress stands for (40_blocking.md R107). -/
structure CountsInLine (w r : Nat) (k : Kind) (s : State) : Prop where
  kind : s.blk.kind = some k
  writes : (dataWrites s.trace).length = w + writesSoFar k s.blk
  reads : (dataReads s.trace).length = r + readsSoFar k s.blk

/-- The command has ended, with one access of each sort its kind makes for each of its `n` bytes (40_blocking.md
R107). -/
structure CountsFull (w r n : Nat) (k : Kind) (s : State) : Prop where
  kind : s.blk.kind = none
  writes : (dataWrites s.trace).length = w + (if k.sends then n else 0)
  reads : (dataReads s.trace).length = r + (if k.receives then n else 0)

/-- The end of a byte counts it: with the accesses of the bytes up to this one made, the command is in line at the next
byte, or has ended with all of them. -/
theorem endByte_counts {w r : Nat} {k : Kind} {s : State} (hkind : s.blk.kind = some k)
    (hinc : s.blk.i + 1 < 2 ^ s.par.sizeBits)
    (hwrites : (dataWrites s.trace).length = w + (if k.sends then s.blk.i + 1 else 0))
    (hreads : (dataReads s.trace).length = r + (if k.receives then s.blk.i + 1 else 0)) :
    CountsInLine w r k (endByte k s) ∨ CountsFull w r s.blk.n k (endByte k s) := by
  by_cases hlast : s.blk.i + 1 = s.blk.n
  · rw [endByte_last hinc hlast, ← hlast]
    exact .inr ⟨rfl, by rw [dataWrites_append_done, hwrites], by rw [dataReads_append_done, hreads]⟩
  · rw [endByte_next hinc hlast]
    exact .inl ⟨hkind, hwrites, hreads⟩

section
variable {w r : Nat} {k : Kind} {s t : State} (h : CountsInLine w r k s)
include h

/-- Events that are no DATA access, with no progress, keep the count. -/
theorem CountsInLine.extend {es : List Event} (hk : t.blk.kind = s.blk.kind)
    (hpw : writesSoFar k t.blk = writesSoFar k s.blk) (hpr : readsSoFar k t.blk = readsSoFar k s.blk)
    (ht : t.trace = s.trace ++ es) (hw : dataWrites es = []) (hr : dataReads es = []) : CountsInLine w r k t := by
  refine ⟨hk.trans h.kind, ?_, ?_⟩
  · rw [ht, dataWrites_append, hw, List.append_nil, hpw, h.writes]
  · rw [ht, dataReads_append, hr, List.append_nil, hpr, h.reads]

/-- Past Start the byte in progress is counted among the DataWrites. -/
theorem CountsInLine.writes_past_start (hp : s.blk.phase ≠ .start) :
    (dataWrites s.trace).length = w + (if k.sends then s.blk.i + 1 else 0) := by
  rw [h.writes, writesSoFar, if_neg hp]

theorem CountsInLine.after_startStep (hp : s.blk.phase = .start) (hs : startStep k s = .ok t) :
    CountsInLine w r k t := by
  obtain ⟨hkind, hwrites, hreads⟩ := h
  rcases startStep_ok hs with ⟨hk, b, u, -, hu, rfl⟩ | ⟨hk, rfl⟩
  · obtain ⟨-, -, -, hb, -⟩ := dataWrite_keeps hu
    obtain ⟨hwr, hrd⟩ := dataWrite_counts hu
    refine ⟨by simp [hb, hkind], ?_, by simp [hrd, hb, hreads, readsSoFar]⟩
    simp [hwr, hb, hwrites, writesSoFar, hk, hp, Nat.add_assoc]
  · exact ⟨hkind, by simpa [writesSoFar, hk] using hwrites, hreads⟩

theorem CountsInLine.after_waitStep (hp : s.blk.phase = .wait) : CountsInLine w r k (waitStep s) := by
  cases htc : s.tc with
  | true =>
    rw [waitStep_done htc]
    exact h.extend (es := []) rfl (by simp [writesSoFar, hp]) rfl (List.append_nil _).symm rfl rfl
  | false =>
    by_cases ht : s.blk.t = 0
    · rw [waitStep_late htc ht]
      exact h.extend rfl (by simp [writesSoFar, hp]) rfl rfl rfl rfl
    · rw [waitStep_spin htc ht]
      exact h.extend rfl rfl rfl rfl rfl rfl

theorem CountsInLine.after_finishStep (hp : s.blk.phase = .finish) (hinc : s.blk.i + 1 < 2 ^ s.par.sizeBits)
    (hf : finishStep k s = .ok t) : CountsInLine w r k t ∨ CountsFull w r s.blk.n k t := by
  have hwrites := h.writes_past_start (by simp [hp])
  rcases finishStep_ok hf with ⟨hk, u, hu, rfl⟩ | ⟨hk, rfl⟩
  · obtain ⟨-, -, rfl⟩ := regionWrite_ok.1 hu
    obtain ⟨hwr, hrd⟩ := dataRead_counts s
    refine endByte_counts h.kind hinc ((congrArg List.length hwr).trans hwrites)
      ((congrArg List.length hrd).trans ?_)
    simp [h.reads, readsSoFar, hk, Nat.add_assoc]
  · exact endByte_counts h.kind hinc hwrites (by simpa [readsSoFar, hk] using h.reads)

theorem CountsInLine.after_microStep (hinc : s.blk.i + 1 < 2 ^ s.par.sizeBits) (hm : microStep k s = .ok t) :
    CountsInLine w r k t ∨ CountsFull w r s.blk.n k t := by
  unfold microStep at hm
  split at hm
  · next hp => exact .inl (h.after_startStep hp hm)
  · next hp =>
    cases hm
    exact .inl (h.after_waitStep hp)
  · next hp => exact h.after_finishStep hp hinc hm

/-- While no async transfer is active the interrupt step makes no DATA access (41_async.md R137). -/
theorem CountsInLine.after_interruptBody (hm : s.xfer.mode = .idle) (hi : interruptBody s = .ok t) :
    CountsInLine w r k t := by
  obtain ⟨u, ha, hn⟩ := interruptBody_ok.1 hi
  have hu : u = interruptEntry s := by
    simpa [advance, interruptEntry, hm, eq_comm] using ha
  have hentry : CountsInLine w r k (interruptEntry s) := h.extend rfl rfl rfl rfl rfl rfl
  subst hu
  rcases notify_ok hn with ⟨-, rfl⟩ | ⟨-, -, rfl⟩
  · exact hentry.extend rfl rfl rfl rfl rfl rfl
  · exact hentry

end

/-- A step that leaves S.fault clear raised no fault (60_exceptions.md R216). -/
theorem ok_of_commit {s t : State} {r : Except Trap State} (hc : commit s r = .next t) (hf : t.fault = 0x00#8) :
    r = .ok t := by
  rcases commit_next.1 hc with hr | ⟨f, -, rfl⟩
  · exact hr
  · have hne : f.code.byte ≠ 0x00#8 := by cases f.code <;> decide
    exact absurd hf hne

/-- Every agent's move keeps the count in line with the progress, and the move that ends the command leaves it full. -/
theorem CountsInLine.after_runMove {w r : Nat} {k : Kind} {m : Move} {s t : State} (h : CountsInLine w r k s)
    (hc : Coherent s) (hrun : runMove m s = .next t) (hf : t.fault = 0x00#8) :
    CountsInLine w r k t ∨ CountsFull w r s.blk.n k t := by
  obtain ⟨⟨hidle, -⟩, ⟨hi, -⟩, -⟩ := hc.blockingOk (by simp [h.kind])
  obtain ⟨hn, -⟩ := hc.blockingFits
  cases m with
  | foreground =>
    rw [runMove, foregroundStep_of_kind h.kind] at hrun
    exact h.after_microStep (by omega) (ok_of_commit hrun hf)
  | interrupt => exact .inl (h.after_interruptBody hidle (ok_of_commit hrun hf))
  | exchangeDone b | peerStart =>
    cases hrun
    exact .inl (h.extend rfl rfl rfl rfl rfl rfl)
  | peerWait =>
    cases hrun
    exact .inl h

/-- Settles O30: `CountsInLine.after_runMove`, whose two outcomes are the statement's. -/
theorem blockingAccessCount : Obligations.BlockingAccessCount := by
  unfold Obligations.BlockingAccessCount
  intro w r k m s t hc _ hk _ hrun hf hw hr
  refine (CountsInLine.after_runMove ⟨hk, hw, hr⟩ hc hrun hf).imp ?_ ?_
  · rintro ⟨hk, hw, hr⟩
    exact ⟨hk, hw, hr⟩
  · rintro ⟨hk, hw, hr⟩
    exact ⟨hk, hw, hr⟩

end Sys2Proof.Machine
end

section
/-! SUPPORT. What the blocking engine writes: STATUS in TC only, and memory only at the slot of the byte a Finish
stores (40_blocking.md R106, R110). -/

namespace Sys2Proof.Machine

/-- STATUS is as before, or has TC cleared (10_state.md R53). -/
def StatusKept (s t : State) : Prop := t.status = s.status ∨ t.status = setBit s.status 7 false

theorem StatusKept.bit_eq {s t : State} (h : StatusKept s t) {j : Nat} (hj : j ≠ 7) :
    bit t.status j = bit s.status j := by
  rcases h with h | h <;> rw [h]
  rw [bit_setBit _ _ _ _ (by decide), if_neg hj]

theorem sameMemory_of_mem_eq {s t : State} (h : t.mem = s.mem) : SameMemory s t := fun _ => by rw [h]

theorem sameMemoryBut_of_write {s t : State} {a : Nat} {v : Byte} (hwf : Memory.wf s.mem = true)
    (h : t.mem = Memory.write s.mem a v) : SameMemoryBut a s t := fun x hx => by
  rw [h, Memory.read_write hwf, if_neg hx]

theorem dataWrite_statusKept {b : Byte} {s t : State} (h : dataWrite b s = .ok t) : StatusKept s t := by
  rcases dataWrite_ok h with ⟨-, -, rfl⟩ | ⟨-, -, -, rfl⟩ | ⟨-, -, rfl⟩
  · exact .inl rfl
  · exact .inr rfl
  · exact .inr rfl

theorem startStep_writes {k : Kind} {s t : State} (h : startStep k s = .ok t) : StatusKept s t ∧ t.mem = s.mem := by
  rcases startStep_ok h with ⟨-, b, u, -, hu, rfl⟩ | ⟨-, rfl⟩
  · have hst : StatusKept s u := dataWrite_statusKept hu
    have hmem : u.mem = s.mem := by rw [dataWrite_frame hu]
    exact ⟨hst, hmem⟩
  · exact ⟨.inl rfl, rfl⟩

theorem waitStep_writes (s : State) : StatusKept s (waitStep s) ∧ (waitStep s).mem = s.mem := by
  unfold waitStep
  split
  · exact ⟨.inl rfl, rfl⟩
  · split <;> exact ⟨.inl rfl, rfl⟩

theorem finishStep_writes {k : Kind} {s t : State} (h : finishStep k s = .ok t) :
    StatusKept s t ∧
      (t.mem = s.mem ∨ k ≠ .tx ∧ t.mem = Memory.write s.mem (indexed s.blk.rxb s.blk.i) s.rxLatch) := by
  rcases finishStep_ok h with ⟨hk, u, hu, rfl⟩ | ⟨-, rfl⟩ <;> rw [endByte_frame]
  · obtain ⟨-, -, rfl⟩ := regionWrite_ok.1 hu
    exact ⟨.inr rfl, .inr ⟨Kind.receives_iff.1 hk, rfl⟩⟩
  · exact ⟨.inl rfl, .inl rfl⟩

/-- Only a Finish of a kind that receives writes memory, at the slot of its byte. -/
theorem microStep_writes {k : Kind} {s t : State} (h : microStep k s = .ok t) :
    StatusKept s t ∧
      (t.mem = s.mem ∨ (k ≠ .tx ∧ s.blk.phase = .finish) ∧
        t.mem = Memory.write s.mem (indexed s.blk.rxb s.blk.i) s.rxLatch) := by
  unfold microStep at h
  split at h
  · obtain ⟨hst, hmem⟩ := startStep_writes h
    exact ⟨hst, .inl hmem⟩
  · cases h
    obtain ⟨hst, hmem⟩ := waitStep_writes s
    exact ⟨hst, .inl hmem⟩
  · next hp =>
    obtain ⟨hst, hmem⟩ := finishStep_writes h
    exact ⟨hst, hmem.imp_right fun ⟨hk, hw⟩ => ⟨⟨hk, hp⟩, hw⟩⟩

theorem microStep_keeps {k : Kind} {s t : State} (h : microStep k s = .ok t) :
    t.ctrl = s.ctrl ∧ t.arg = s.arg ∧ t.xfer = s.xfer ∧ t.ghost = s.ghost ∧ t.hook = s.hook ∧
      t.rxLatch = s.rxLatch := by
  rw [microStep_frame h]
  exact ⟨rfl, rfl, rfl, rfl, rfl, rfl⟩

/-- Settles O32: an issue writes the engine, or RESULT, TO_COUNT, the trace and S.cpc; a micro-step meets
`microStep_keeps` and `microStep_writes`; and a raised fault undoes either. -/
theorem blockingFrame : Obligations.BlockingFrame := by
  unfold Obligations.BlockingFrame
  refine ⟨fun k s t hx => ?_, fun k s t hk hx => ?_⟩
  · rw [exec_blocking] at hx
    rcases commit_next.1 hx with hr | ⟨f, -, rfl⟩
    · rcases issueBlocking_ok hr with ⟨-, rfl⟩ | ⟨-, -, -, -, rfl⟩ <;>
        exact ⟨rfl, rfl, rfl, rfl, rfl, rfl, rfl, rfl, rfl, fun _ => rfl⟩
    · exact ⟨rfl, rfl, rfl, rfl, rfl, rfl, rfl, rfl, rfl, fun _ => rfl⟩
  · rw [foregroundStep_of_kind hk] at hx
    rcases commit_next.1 hx with hr | ⟨f, -, rfl⟩
    · obtain ⟨hst, hmem⟩ := microStep_writes hr
      obtain ⟨hctrl, harg, hxfer, hghost, hhook, hlatch⟩ := microStep_keeps hr
      refine ⟨hctrl, harg, hxfer, hghost, hhook, hlatch, fun _ => hst.bit_eq, fun hwf => ?_, fun hno => ?_⟩
      · rcases hmem with hsame | ⟨-, hw⟩
        · exact fun a _ => sameMemory_of_mem_eq hsame a
        · exact sameMemoryBut_of_write hwf hw
      · rcases hmem with hsame | ⟨⟨hrecv, hp⟩, -⟩
        · exact sameMemory_of_mem_eq hsame
        · exact absurd hno (not_or.2 ⟨hrecv, not_not_intro hp⟩)
    · exact ⟨rfl, rfl, rfl, rfl, rfl, rfl, fun _ _ => rfl, fun _ _ _ => rfl, fun _ _ => rfl⟩

end Sys2Proof.Machine
end

section
/-! SUPPORT. The two accesses of an async transfer to a byte of memory, an equation for each outcome (20_memory.md
R64, 41_async.md R124, R138 to R141, 43_serial_engine.md R171, R172). -/

namespace Sys2Proof.Machine

/-- The access to `a` in the region [lo, hi) raises BufferRange (20_memory.md R62 to R64). -/
abbrev OutOfReach (p : Params) (lo hi a : Nat) : Prop := existsAt p a = false ∨ a < lo ∨ hi ≤ a

/-- `r` is the state after a DataWrite of `b` that raises no fault, accepted or dropped (43_serial_engine.md R171). -/
abbrev WriteTaken (b : Byte) (s r : State) : Prop :=
  s.xferBusy = false ∧ r = acceptedWrite b s ∨
    s.xferBusy = true ∧ s.par.writeWhileBusy = .drop ∧ r = { s with trace := s.trace ++ [.dataWr b false] }

theorem WriteTaken.dataWrite_eq {b : Byte} {s r : State} (h : WriteTaken b s r) : dataWrite b s = .ok r := by
  rcases h with ⟨hbusy, rfl⟩ | ⟨hbusy, hpol, rfl⟩
  · exact dataWrite_accepted b hbusy
  · exact dataWrite_dropped b hbusy hpol

section
variable {lo hi a : Nat} {s : State}

theorem OutOfReach.not_within {p : Params} (h : OutOfReach p lo hi a) (hw : within lo hi a = true) :
    existsAt p a = false := by
  obtain ⟨hlo, hhi⟩ := within_iff.1 hw
  exact h.resolve_right (not_or.2 ⟨Nat.not_lt.2 hlo, Nat.not_le.2 hhi⟩)

theorem regionRead_outOfReach (h : OutOfReach s.par lo hi a) : regionRead lo hi a s = .error ⟨.bufferRange, a⟩ := by
  by_cases hw : within lo hi a = true
  · exact regionRead_missing hw (h.not_within hw)
  · exact if_neg hw

theorem regionWrite_outOfReach {v : Byte} (h : OutOfReach s.par lo hi a) :
    regionWrite lo hi a v s = .error ⟨.bufferRange, a⟩ := by
  by_cases hw : within lo hi a = true
  · exact regionWrite_missing hw v (h.not_within hw)
  · exact if_neg hw

theorem sendByte_outOfReach (h : OutOfReach s.par s.ghost.txLo s.ghost.txHi a) :
    sendByte a s = .error ⟨.bufferRange, a⟩ := by
  rw [sendByte, regionRead_outOfReach h]

theorem storeByte_outOfReach (h : OutOfReach s.par s.ghost.rxLo s.ghost.rxHi a) :
    storeByte a s = .error ⟨.bufferRange, a⟩ :=
  regionWrite_outOfReach (s := dataRead s) h

variable (he : existsAt s.par a = true)
include he

theorem sendByte_of_within (hlo : s.ghost.txLo ≤ a) (hhi : a < s.ghost.txHi) :
    sendByte a s = dataWrite (Memory.read s.mem a) s := by
  rw [sendByte, regionRead_ok.2 ⟨within_iff.2 ⟨hlo, hhi⟩, he, rfl⟩]

theorem storeByte_of_within (hlo : s.ghost.rxLo ≤ a) (hhi : a < s.ghost.rxHi) :
    storeByte a s = .ok { readDone s with mem := Memory.write s.mem a s.rxLatch } :=
  storeByte_ok.2 ⟨within_iff.2 ⟨hlo, hhi⟩, he, rfl⟩

end

end Sys2Proof.Machine
end

section
/-! SUPPORT. The arming commands: an equation for each outcome (41_async.md R121 to R130). -/

namespace Sys2Proof.Machine

/-! ## Arming, once admitted -/

section
variable {a b n : Nat} {s : State}

theorem armTx_range (h : 2 ^ s.par.addrBits < a + n) : armTx a n s = .error ⟨.bufferRange, a⟩ :=
  if_pos (mt regionFits_iff.1 (Nat.not_le.2 h))

theorem armTxrx_txRange (h : 2 ^ s.par.addrBits < a + n) : armTxrx a b n s = .error ⟨.bufferRange, a⟩ :=
  if_pos (mt regionFits_iff.1 (Nat.not_le.2 h))

theorem armTxrx_rxRange (hfit : a + n ≤ 2 ^ s.par.addrBits) (h : 2 ^ s.par.addrBits < b + n) :
    armTxrx a b n s = .error ⟨.bufferRange, b⟩ :=
  (if_neg (not_not_intro (regionFits_iff.2 hfit))).trans (if_pos (mt regionFits_iff.1 (Nat.not_le.2 h)))

theorem armRx_range (hn : 0 < n) (h : 2 ^ s.par.addrBits < b + n) : armRx b n s = .error ⟨.bufferRange, b⟩ :=
  if_pos ⟨hn, mt regionFits_iff.1 (Nat.not_le.2 h)⟩

theorem armRx_fits (h : n = 0 ∨ b + n ≤ 2 ^ s.par.addrBits) :
    armRx b n s = .ok (s.setTransfer { s.xfer with mode := .rx, rxCur := b, remaining := n }
      { s.ghost with rxLo := b, rxHi := b + n }) := by
  refine if_neg ?_
  rintro ⟨hn, hbig⟩
  exact hbig (regionFits_iff.2 (h.resolve_left (Nat.ne_of_gt hn)))

variable (hfit : a + n ≤ 2 ^ s.par.addrBits)
include hfit

theorem armTx_missing (he : existsAt s.par a = false) : armTx a n s = .error ⟨.bufferRange, a⟩ := by
  rw [armTx_of_fits (regionFits_iff.2 hfit), sendByte_outOfReach (.inl (by exact he))]
  rfl

theorem armTxrx_missing (hfitRx : b + n ≤ 2 ^ s.par.addrBits) (he : existsAt s.par a = false) :
    armTxrx a b n s = .error ⟨.bufferRange, a⟩ := by
  rw [armTxrx_of_fits (regionFits_iff.2 hfit) (regionFits_iff.2 hfitRx), sendByte_outOfReach (.inl (by exact he))]
  rfl

variable (hn : 0 < n) (he : existsAt s.par a = true)
include hn he

/-- The first byte is in its region, so arming is its DataWrite and the new TransferState. -/
theorem armTx_sends :
    armTx a n s = (dataWrite (Memory.read s.mem a) s).map
      (·.setTransfer { s.xfer with mode := .tx, txCur := cursorNext s.par a, remaining := n - 1 }
        { s.ghost with txLo := a, txHi := a + n }) := by
  have hin : a < a + n := Nat.lt_add_of_pos_right hn
  rw [armTx_of_fits (regionFits_iff.2 hfit), sendByte_of_within (by exact he) (Nat.le_refl a) hin,
    dataWrite_setTransfer, State.setTransfer_mem]
  cases dataWrite (Memory.read s.mem a) s <;> rfl

theorem armTxrx_sends (hfitRx : b + n ≤ 2 ^ s.par.addrBits) :
    armTxrx a b n s = (dataWrite (Memory.read s.mem a) s).map
      (·.setTransfer { mode := .txrx, txCur := cursorNext s.par a, rxCur := b, remaining := n - 1 }
        { txLo := a, txHi := a + n, rxLo := b, rxHi := b + n }) := by
  have hin : a < a + n := Nat.lt_add_of_pos_right hn
  rw [armTxrx_of_fits (regionFits_iff.2 hfit) (regionFits_iff.2 hfitRx),
    sendByte_of_within (by exact he) (Nat.le_refl a) hin, dataWrite_setTransfer, State.setTransfer_mem]
  cases dataWrite (Memory.read s.mem a) s <;> rfl

end

theorem commit_completeArming_error {r : Except Trap State} {f : Trap} (h : r = .error f) (op : Instr) (s : State) :
    commit s (completeArming op r) = .next (raiseFault f s) := by
  rw [h]
  rfl

theorem commit_completeArming_ok {r : Except Trap State} {t : State} (h : r = .ok t) (op : Instr) (s : State) :
    commit s (completeArming op r) = .next (t.complete op .ok) := by
  rw [h]
  rfl

/-! ## Admission (41_async.md R121 to R123) -/

/-- The admission rule refuses all three commands alike. -/
theorem exec_arming_busy {i : Instr} {s : State} (hi : i ∈ [.txAsync, .rxAsync, .txrxAsync])
    (hr : s.xfer.remaining ≠ 0) : exec i s = .next (s.complete i .busyIgnored) := by
  simp only [List.mem_cons, List.not_mem_nil, or_false] at hi
  rcases hi with rfl | rfl | rfl
  · exact execTxAsync_busy hr
  · exact execRxAsync_busy hr
  · exact execTxrxAsync_busy hr

section
variable {s : State} (hr : s.xfer.remaining = 0)
include hr

theorem exec_arming_zero {i : Instr} (hi : i ∈ [.txAsync, .txrxAsync]) (hn : s.arg.size = 0) :
    exec i s = .next (s.complete i .ok) := by
  simp only [List.mem_cons, List.not_mem_nil, or_false] at hi
  rcases hi with rfl | rfl
  · simp only [exec, execTxAsync, hr, ne_eq, not_true_eq_false, if_false, if_pos hn, commit]
  · simp only [exec, execTxrxAsync, hr, ne_eq, not_true_eq_false, if_false, if_pos hn, commit]

theorem exec_rxAsync_admitted :
    exec .rxAsync s = commit s (completeArming .rxAsync (armRx s.arg.rx s.arg.size s)) := by
  simp only [exec, execRxAsync, hr, ne_eq, not_true_eq_false, if_false]

theorem exec_rxAsync_arms (h : s.arg.size = 0 ∨ s.arg.rx + s.arg.size ≤ 2 ^ s.par.addrBits) :
    exec .rxAsync s =
      .next ((s.setTransfer { s.xfer with mode := .rx, rxCur := s.arg.rx, remaining := s.arg.size }
        { s.ghost with rxLo := s.arg.rx, rxHi := s.arg.rx + s.arg.size }).complete .rxAsync .ok) :=
  (exec_rxAsync_admitted hr).trans (commit_completeArming_ok (armRx_fits h) _ _)

variable (hn : 0 < s.arg.size)
include hn

theorem exec_txAsync_admitted :
    exec .txAsync s = commit s (completeArming .txAsync (armTx s.arg.tx s.arg.size s)) := by
  simp only [exec, execTxAsync, hr, ne_eq, not_true_eq_false, if_false, if_neg (Nat.ne_of_gt hn)]

theorem exec_txrxAsync_admitted :
    exec .txrxAsync s = commit s (completeArming .txrxAsync (armTxrx s.arg.tx s.arg.rx s.arg.size s)) := by
  simp only [exec, execTxrxAsync, hr, ne_eq, not_true_eq_false, if_false, if_neg (Nat.ne_of_gt hn)]

end

/-- Settles O33: `exec_arming_busy`, written out. -/
theorem busyArmingIsIgnored : Obligations.BusyArmingIsIgnored := by
  unfold Obligations.BusyArmingIsIgnored
  exact fun _ _ => exec_arming_busy

/-- Settles O34: the zero test comes after the admission rule, and RX_ASYNC has none. -/
theorem zeroLengthArming : Obligations.ZeroLengthArming := by
  unfold Obligations.ZeroLengthArming
  refine ⟨fun i s hi hn hr => exec_arming_zero hr hi hn, fun s hn hr => ?_,
    fun i s hi _ hr => ⟨_, exec_arming_busy hi hr, rfl⟩⟩
  exact ⟨_, exec_rxAsync_arms hr (.inl hn), rfl, hn, rfl⟩

/-- Settles O36: `armRx` has one check, the fit of a region of size above 0. -/
theorem rxAsyncArms : Obligations.RxAsyncArms := by
  unfold Obligations.RxAsyncArms
  refine ⟨decode_encode .rxAsync, fun s => exec_arming_busy (by simp),
    fun s hr => ⟨fun hn hbig => ?_, exec_rxAsync_arms hr⟩⟩
  exact (exec_rxAsync_admitted hr).trans (commit_completeArming_error (armRx_range hn hbig) _ _)

/-- Settles O35: an admitted TX_ASYNC is `armTx`, whose first byte is read and then written to DATA. -/
theorem txAsyncArms : Obligations.TxAsyncArms := by
  unfold Obligations.TxAsyncArms
  refine ⟨decode_encode .txAsync, fun s => exec_arming_busy (by simp), fun s hr => exec_arming_zero hr (by simp), ?_⟩
  rintro s b hr hn rfl
  rw [exec_txAsync_admitted hr hn]
  refine ⟨fun h => commit_completeArming_error ?_ _ _, fun hfit he => ⟨fun r h => ?_, fun hbusy hpol => ?_⟩⟩
  · by_cases hfit : s.arg.tx + s.arg.size ≤ 2 ^ s.par.addrBits
    · exact armTx_missing hfit (h.resolve_left (Nat.not_lt.2 hfit))
    · exact armTx_range (Nat.not_le.1 hfit)
  · have hd := WriteTaken.dataWrite_eq h
    obtain ⟨-, -, -, -, hcpc, -⟩ := dataWrite_keeps hd
    rw [armTx_sends hfit hn he, hd, ← hcpc]
    rfl
  · rw [armTx_sends hfit hn he, dataWrite_faults _ hbusy hpol]
    rfl

/-- Settles O37: an admitted TXRX_ASYNC is `armTxrx`, which tests the transmit region, then the receive region, then
sends the first byte. -/
theorem txrxAsyncArms : Obligations.TxrxAsyncArms := by
  unfold Obligations.TxrxAsyncArms
  refine ⟨decode_encode .txrxAsync, fun s => exec_arming_busy (by simp),
    fun s hr => exec_arming_zero hr (by simp), ?_⟩
  rintro s b hr hn rfl
  rw [exec_txrxAsync_admitted hr hn]
  refine ⟨fun htx _ => ⟨_, .inl rfl, commit_completeArming_error (armTxrx_txRange htx) _ _⟩,
    fun htx _ => commit_completeArming_error (armTxrx_txRange htx) _ _,
    fun htx hrx => commit_completeArming_error (armTxrx_rxRange htx hrx) _ _,
    fun htx hrx he => commit_completeArming_error (armTxrx_missing htx hrx he) _ _,
    fun htx hrx he => ⟨fun r h => ?_, fun hbusy hpol => ?_⟩⟩
  · have hd := WriteTaken.dataWrite_eq h
    obtain ⟨-, -, -, -, hcpc, -⟩ := dataWrite_keeps hd
    rw [armTxrx_sends htx hn he hrx, hd, ← hcpc]
    rfl
  · rw [armTxrx_sends htx hn he hrx, dataWrite_faults _ hbusy hpol]
    rfl

end Sys2Proof.Machine
end

section
/-! SUPPORT. What the arming commands leave as it was (41_async.md R128). -/

namespace Sys2Proof.Machine

/-- What no arming command writes: caller memory, CTRL, the argument registers, TO_COUNT, S.hook, S.rx_latch, the
blocking engine, and STATUS but for TC. -/
def KeptByArming (s t : State) : Prop :=
  SameMemory s t ∧ t.ctrl = s.ctrl ∧ t.arg = s.arg ∧ t.toCount = s.toCount ∧ t.hook = s.hook ∧
    t.rxLatch = s.rxLatch ∧ t.blk = s.blk ∧ ∀ k, k ≠ 7 → bit t.status k = bit s.status k

theorem KeptByArming.refl (s : State) : KeptByArming s s :=
  ⟨fun _ => rfl, rfl, rfl, rfl, rfl, rfl, rfl, fun _ _ => rfl⟩

theorem KeptByArming.after_dataWrite {b : Byte} {s t : State} (h : dataWrite b s = .ok t) : KeptByArming s t := by
  have hst : ∀ k, k ≠ 7 → bit t.status k = bit s.status k := fun _ => (dataWrite_statusKept h).bit_eq
  rcases dataWrite_ok h with ⟨-, -, rfl⟩ | ⟨-, -, -, rfl⟩ | ⟨-, -, rfl⟩ <;>
    exact ⟨fun _ => rfl, rfl, rfl, rfl, rfl, rfl, rfl, hst⟩

/-- What a command that admits, refuses or faults can come to: RESULT, the trace and S.cpc, or S.fault and the trace,
or an answered arming completed (41_async.md R121 to R130). -/
inductive ArmingOutcome (op : Instr) (arm : Except Trap State) (s : State) : State → Prop where
  | ignored (r : Result) : ArmingOutcome op arm s (s.complete op r)
  | faulted (f : Trap) : ArmingOutcome op arm s (raiseFault f s)
  | armed (u : State) : arm = .ok u → ArmingOutcome op arm s (u.complete op .ok)

theorem ArmingOutcome.of_completeArming {op : Instr} {arm : Except Trap State} {s t : State}
    (h : commit s (completeArming op arm) = .next t) : ArmingOutcome op arm s t := by
  rcases commit_next.1 h with hok | ⟨f, -, rfl⟩
  · obtain ⟨u, hu, rfl⟩ := completeArming_ok hok
    exact .armed u hu
  · exact .faulted f

section
variable {s t : State}

theorem exec_rxAsync_outcome (h : exec .rxAsync s = .next t) :
    ArmingOutcome .rxAsync (armRx s.arg.rx s.arg.size s) s t := by
  by_cases hr : s.xfer.remaining = 0
  · exact .of_completeArming ((exec_rxAsync_admitted hr).symm.trans h)
  · cases (exec_arming_busy (by simp) hr).symm.trans h
    exact .ignored _

/-- The two commands with a zero test, each with its own arming. -/
theorem exec_sending_outcome {i : Instr} {arm : Except Trap State} (hi : i ∈ [.txAsync, .txrxAsync])
    (hadmitted : s.xfer.remaining = 0 → 0 < s.arg.size → exec i s = commit s (completeArming i arm))
    (h : exec i s = .next t) : ArmingOutcome i arm s t := by
  by_cases hr : s.xfer.remaining = 0
  · rcases Nat.eq_zero_or_pos s.arg.size with hn | hn
    · cases (exec_arming_zero hr hi hn).symm.trans h
      exact .ignored _
    · exact .of_completeArming ((hadmitted hr hn).symm.trans h)
  · have hbusy : exec i s = .next (s.complete i .busyIgnored) :=
      exec_arming_busy ((by simp : [Instr.txAsync, .txrxAsync] ⊆ [.txAsync, .rxAsync, .txrxAsync]) hi) hr
    cases hbusy.symm.trans h
    exact .ignored _

end

theorem txAsync_frame {s t : State} (h : exec .txAsync s = .next t) :
    KeptByArming s t ∧
      t.xfer.rxCur = s.xfer.rxCur ∧ t.ghost.rxLo = s.ghost.rxLo ∧ t.ghost.rxHi = s.ghost.rxHi := by
  rcases exec_sending_outcome (by simp) exec_txAsync_admitted h with r | f | ⟨u, hu⟩
  · exact ⟨.refl s, rfl, rfl, rfl⟩
  · exact ⟨.refl s, rfl, rfl, rfl⟩
  · obtain ⟨-, -, v, hd, rfl⟩ := armTx_ok hu
    have hkept := KeptByArming.after_dataWrite hd
    exact ⟨hkept, rfl, rfl, rfl⟩

theorem rxAsync_frame {s t : State} (h : exec .rxAsync s = .next t) :
    KeptByArming s t ∧
      t.xfer.txCur = s.xfer.txCur ∧ t.ghost.txLo = s.ghost.txLo ∧ t.ghost.txHi = s.ghost.txHi ∧
      t.status = s.status ∧ t.txShift = s.txShift ∧ t.xferBusy = s.xferBusy := by
  rcases exec_rxAsync_outcome h with r | f | ⟨u, hu⟩
  · exact ⟨.refl s, rfl, rfl, rfl, rfl, rfl, rfl⟩
  · exact ⟨.refl s, rfl, rfl, rfl, rfl, rfl, rfl⟩
  · obtain ⟨-, rfl⟩ := armRx_ok hu
    exact ⟨.refl s, rfl, rfl, rfl, rfl, rfl, rfl⟩

theorem txrxAsync_frame {s t : State} (h : exec .txrxAsync s = .next t) : KeptByArming s t := by
  rcases exec_sending_outcome (by simp) exec_txrxAsync_admitted h with r | f | ⟨u, hu⟩
  · exact .refl s
  · exact .refl s
  · obtain ⟨-, -, -, v, hd, rfl⟩ := armTxrx_ok hu
    have hkept := KeptByArming.after_dataWrite hd
    exact hkept

/-- Settles O38: the frames of the three commands. -/
theorem asyncArmingFrame : Obligations.AsyncArmingFrame := by
  unfold Obligations.AsyncArmingFrame
  intro i s t hi h
  simp only [List.mem_cons, List.not_mem_nil, or_false] at hi
  rcases hi with rfl | rfl | rfl
  · obtain ⟨hkept, hrx⟩ := txAsync_frame h
    exact ⟨hkept, fun _ => hrx, nofun⟩
  · obtain ⟨hkept, htx⟩ := rxAsync_frame h
    exact ⟨hkept, nofun, fun _ => htx⟩
  · exact ⟨txrxAsync_frame h, nofun, nofun⟩

end Sys2Proof.Machine
end

section
/-! SUPPORT. The advance: an equation for each outcome in each mode (41_async.md R137 to R141). -/

namespace Sys2Proof.Machine

section
variable {s : State}

theorem advance_idle (hm : s.xfer.mode = .idle) : advance s = .ok s := by rw [advance, hm]

theorem advance_tx (hm : s.xfer.mode = .tx) : advance s = advanceTx s := by rw [advance, hm]

theorem advance_rx (hm : s.xfer.mode = .rx) : advance s = advanceRx s := by rw [advance, hm]

theorem advance_txrx (hm : s.xfer.mode = .txrx) : advance s = advanceTxrx s := by rw [advance, hm]

/-- A DataWrite keeps caller memory, the read side of DATA and the hook (43_serial_engine.md R171). -/
theorem dataWrite_keeps_data {b : Byte} {t : State} (h : dataWrite b s = .ok t) :
    t.mem = s.mem ∧ t.rxLatch = s.rxLatch ∧ t.hook = s.hook := by
  rw [dataWrite_frame h]
  exact ⟨rfl, rfl, rfl⟩

/-! ## Nothing remains -/

section
variable (hr : s.xfer.remaining = 0)
include hr

theorem advanceTx_drains : advanceTx s = .ok (toIdle s) := if_pos hr

theorem advanceRx_drains : advanceRx s = .ok (toIdle s) := if_pos hr

theorem advanceTxrx_final : advanceTxrx s = (storeByte s.xfer.rxCur s).map toIdle := by
  rw [advanceTxrx, if_pos hr]
  cases storeByte s.xfer.rxCur s <;> rfl

end

/-! ## Bytes remain -/

section
variable (hr : s.xfer.remaining ≠ 0)
include hr

theorem advanceTx_of_ok {r : State} (h : sendByte s.xfer.txCur s = .ok r) :
    advanceTx s = .ok { r with xfer := { s.xfer with
      txCur := cursorNext s.par s.xfer.txCur, remaining := s.xfer.remaining - 1 } } := by
  obtain ⟨-, hx⟩ := sendByte_keeps h
  rw [advanceTx, if_neg hr, h, ← hx]

theorem advanceTx_of_error {f : Trap} (h : sendByte s.xfer.txCur s = .error f) : advanceTx s = .error f := by
  rw [advanceTx, if_neg hr, h]

theorem advanceRx_of_ok {r : State} (h : storeByte s.xfer.rxCur s = .ok r) :
    advanceRx s = .ok { r with xfer := { s.xfer with
      mode := if s.xfer.remaining = 1 then .idle else s.xfer.mode
      rxCur := cursorNext s.par s.xfer.rxCur
      remaining := s.xfer.remaining - 1 } } := by
  obtain ⟨-, hx⟩ := storeByte_keeps h
  have hlast : s.xfer.remaining - 1 = 0 ↔ s.xfer.remaining = 1 := by omega
  rw [advanceRx, if_neg hr, h]
  simp only [hlast, hx]

theorem advanceRx_of_error {f : Trap} (h : storeByte s.xfer.rxCur s = .error f) : advanceRx s = .error f := by
  rw [advanceRx, if_neg hr, h]

/-- Once its byte is sent, an advance in mode TxRx is the store at the receive cursor and the move of both cursors. -/
theorem advanceTxrx_of_ok {r : State} (h : sendByte s.xfer.txCur s = .ok r) :
    advanceTxrx s = (storeByte s.xfer.rxCur r).map fun u => { u with xfer := { s.xfer with
      txCur := cursorNext s.par s.xfer.txCur
      rxCur := cursorNext s.par s.xfer.rxCur
      remaining := s.xfer.remaining - 1 } } := by
  obtain ⟨-, hx⟩ := sendByte_keeps h
  simp only [advanceTxrx, if_neg hr, h]
  rw [← hx]
  cases hu : storeByte r.xfer.rxCur r with
  | error f => rfl
  | ok u =>
    obtain ⟨-, hxu⟩ := storeByte_keeps hu
    simp only [Except.map, hxu]

theorem advanceTxrx_of_error {f : Trap} (h : sendByte s.xfer.txCur s = .error f) : advanceTxrx s = .error f := by
  simp only [advanceTxrx, if_neg hr, h]

end

end

/-- Settles O39: the advance in mode Tx is `advanceTx`, whose only access is `sendByte` at the transmit cursor. -/
theorem advanceInModeTx : Obligations.AdvanceInModeTx := by
  unfold Obligations.AdvanceInModeTx
  rintro s b hm rfl
  rw [advance_tx hm]
  refine ⟨advanceTx_drains, fun hpos => ?_⟩
  have hr : s.xfer.remaining ≠ 0 := Nat.ne_of_gt hpos
  refine ⟨fun h => advanceTx_of_error hr (sendByte_outOfReach h), fun he hlo hhi => ?_⟩
  have hsend := sendByte_of_within he hlo hhi
  exact ⟨fun r h => advanceTx_of_ok hr (hsend.trans (WriteTaken.dataWrite_eq h)),
    fun hbusy hpol => advanceTx_of_error hr (hsend.trans (dataWrite_faults _ hbusy hpol))⟩

/-- Settles O40: the advance in mode Rx is `advanceRx`, whose only access is `storeByte` at the receive cursor. -/
theorem advanceInModeRx : Obligations.AdvanceInModeRx := by
  unfold Obligations.AdvanceInModeRx
  intro s hm
  rw [advance_rx hm, ← hm]
  refine ⟨advanceRx_drains, fun hpos => ?_⟩
  have hr : s.xfer.remaining ≠ 0 := Nat.ne_of_gt hpos
  exact ⟨fun h => advanceRx_of_error hr (storeByte_outOfReach h),
    fun he hlo hhi => advanceRx_of_ok hr (storeByte_of_within he hlo hhi)⟩

/-- Settles O41: the advance in mode TxRx is `advanceTxrx`; after the DataWrite the receive region, P_MEM and
S.rx_latch are as before, so the store is the one the state before the advance gives. -/
theorem advanceInModeTxrx : Obligations.AdvanceInModeTxrx := by
  unfold Obligations.AdvanceInModeTxrx
  rintro s b hm rfl
  rw [advance_txrx hm]
  refine ⟨fun hr => ⟨fun h => ?_, fun he hlo hhi => ?_⟩, fun hpos => ?_⟩
  · rw [advanceTxrx_final hr, storeByte_outOfReach h]
    rfl
  · rw [advanceTxrx_final hr, storeByte_of_within he hlo hhi]
    rfl
  have hr : s.xfer.remaining ≠ 0 := Nat.ne_of_gt hpos
  refine ⟨fun h => advanceTxrx_of_error hr (sendByte_outOfReach h), fun he hlo hhi => ?_⟩
  have hsend := sendByte_of_within he hlo hhi
  refine ⟨fun r h => ?_, fun hbusy hpol => advanceTxrx_of_error hr (hsend.trans (dataWrite_faults _ hbusy hpol))⟩
  have hd := WriteTaken.dataWrite_eq h
  obtain ⟨hpar, -, hghost, -⟩ := dataWrite_keeps hd
  obtain ⟨hmem, hlatch, -⟩ := dataWrite_keeps_data hd
  rw [advanceTxrx_of_ok hr (hsend.trans hd), ← hm, ← hpar, ← hghost, ← hmem, ← hlatch]
  refine ⟨fun hout => ?_, fun heRx hloRx hhiRx => ?_⟩
  · rw [storeByte_outOfReach hout]
    rfl
  · rw [storeByte_of_within heRx hloRx hhiRx]
    rfl

end Sys2Proof.Machine
end

section
/-! SUPPORT. The accesses to DATA that a part of a step adds to the trace, and those of an advance (41_async.md R142,
43_serial_engine.md R171, R172). -/

namespace Sys2Proof.Machine

/-- From `s` to `t` the trace grows, by DataWrites of the bytes `w` and DataReads of the bytes `r`, each in order. -/
def Accesses (w r : List Byte) (s t : State) : Prop :=
  ∃ es, t.trace = s.trace ++ es ∧ dataWrites es = w ∧ dataReads es = r

section
variable {w w' r r' : List Byte} {s t u : State}

theorem Accesses.trans (h : Accesses w r s t) (h' : Accesses w' r' t u) : Accesses (w ++ w') (r ++ r') s u := by
  obtain ⟨es, ht, hw, hr⟩ := h
  obtain ⟨fs, hu, hw', hr'⟩ := h'
  exact ⟨es ++ fs, by rw [hu, ht, List.append_assoc], by rw [dataWrites_append, hw, hw'],
    by rw [dataReads_append, hr, hr']⟩

theorem Accesses.of_trace_eq (h : t.trace = s.trace) : Accesses [] [] s t :=
  ⟨[], by rw [h, List.append_nil], rfl, rfl⟩

theorem Accesses.trans_quiet (h : Accesses w r s t) (h' : Accesses [] [] t u) : Accesses w r s u := by
  simpa using h.trans h'

theorem Accesses.dataWrites_eq (h : Accesses w r s t) : dataWrites t.trace = dataWrites s.trace ++ w := by
  obtain ⟨es, ht, hw, -⟩ := h
  rw [ht, dataWrites_append, hw]

theorem Accesses.dataReads_eq (h : Accesses w r s t) : dataReads t.trace = dataReads s.trace ++ r := by
  obtain ⟨es, ht, -, hr⟩ := h
  rw [ht, dataReads_append, hr]

end

/-! ## DATA -/

theorem dataWrite_accesses {b : Byte} {s t : State} (h : dataWrite b s = .ok t) : Accesses [b] [] s t := by
  rcases dataWrite_ok h with ⟨-, -, rfl⟩ | ⟨-, -, -, rfl⟩ | ⟨-, -, rfl⟩
  · exact ⟨[.dataWr b false], rfl, rfl, rfl⟩
  · exact ⟨[.dataWr b true, .xferStart b], by simp, rfl, rfl⟩
  · exact ⟨[.dataWr b true], rfl, rfl, rfl⟩

theorem sendByte_accesses {a : Nat} {s t : State} (h : sendByte a s = .ok t) :
    Accesses [Memory.read s.mem a] [] s t := by
  obtain ⟨-, -, hd⟩ := sendByte_ok h
  exact dataWrite_accesses hd

theorem storeByte_accesses {a : Nat} {s t : State} (h : storeByte a s = .ok t) : Accesses [] [s.rxLatch] s t := by
  obtain ⟨-, -, rfl⟩ := storeByte_ok.1 h
  exact ⟨[.dataRd s.rxLatch], rfl, rfl, rfl⟩

/-! ## The advance, row by row (41_async.md R142) -/

section
variable {s t : State} (h : advance s = .ok t)
include h

theorem advance_row_idle (hm : s.xfer.mode = .idle) : t = s :=
  Except.ok.inj (h.symm.trans (advance_idle hm))

theorem advance_row_drain (hm : s.xfer.mode = .tx ∨ s.xfer.mode = .rx) (hr : s.xfer.remaining = 0) :
    t = toIdle s := by
  rcases hm with hm | hm
  · exact Except.ok.inj (h.symm.trans ((advance_tx hm).trans (advanceTx_drains hr)))
  · exact Except.ok.inj (h.symm.trans ((advance_rx hm).trans (advanceRx_drains hr)))

theorem advance_row_tx (hm : s.xfer.mode = .tx) (hr : s.xfer.remaining ≠ 0) :
    t.xfer.mode = .tx ∧ t.xfer.remaining = s.xfer.remaining - 1 ∧
      Accesses [Memory.read s.mem s.xfer.txCur] [] s t := by
  rw [advance_tx hm] at h
  rcases advanceTx_ok h with ⟨hr', -⟩ | ⟨-, u, hu, rfl⟩
  · exact absurd hr' hr
  · obtain ⟨-, hx⟩ := sendByte_keeps hu
    exact ⟨hx ▸ hm, rfl, (sendByte_accesses hu).trans_quiet (.of_trace_eq rfl)⟩

theorem advance_row_rx (hm : s.xfer.mode = .rx) (hr : s.xfer.remaining ≠ 0) :
    t.xfer.mode = (if s.xfer.remaining = 1 then .idle else .rx) ∧ t.xfer.remaining = s.xfer.remaining - 1 ∧
      Accesses [] [s.rxLatch] s t := by
  rw [advance_rx hm] at h
  rcases advanceRx_ok h with ⟨hr', -⟩ | ⟨-, u, hu, -⟩
  · exact absurd hr' hr
  · cases (advanceRx_of_ok hr hu).symm.trans h
    exact ⟨by rw [hm], rfl, (storeByte_accesses hu).trans_quiet (.of_trace_eq rfl)⟩

theorem advance_row_txrx (hm : s.xfer.mode = .txrx) (hr : s.xfer.remaining ≠ 0) :
    t.xfer.mode = .txrx ∧ t.xfer.remaining = s.xfer.remaining - 1 ∧
      Accesses [Memory.read s.mem s.xfer.txCur] [s.rxLatch] s t := by
  rw [advance_txrx hm] at h
  rcases advanceTxrx_ok h with ⟨hr', -⟩ | ⟨-, u, v, hu, hv, rfl⟩
  · exact absurd hr' hr
  · obtain ⟨-, -, hd⟩ := sendByte_ok hu
    obtain ⟨-, hxu, -⟩ := dataWrite_keeps hd
    obtain ⟨-, hlatch, -⟩ := dataWrite_keeps_data hd
    obtain ⟨-, hxv⟩ := storeByte_keeps hv
    have hacc := (sendByte_accesses hu).trans (storeByte_accesses hv)
    exact ⟨(hxv.trans hxu) ▸ hm, rfl, hlatch ▸ hacc.trans_quiet (.of_trace_eq rfl)⟩

theorem advance_row_final (hm : s.xfer.mode = .txrx) (hr : s.xfer.remaining = 0) :
    t.xfer.mode = .idle ∧ t.xfer.remaining = 0 ∧ Accesses [] [s.rxLatch] s t := by
  rw [advance_txrx hm] at h
  rcases advanceTxrx_ok h with ⟨-, u, hu, rfl⟩ | ⟨hr', -⟩
  · obtain ⟨-, hx⟩ := storeByte_keeps hu
    exact ⟨rfl, (congrArg Transfer.remaining hx).trans hr, (storeByte_accesses hu).trans_quiet (.of_trace_eq rfl)⟩
  · exact absurd hr hr'

end

/-- Settles O42: one row of the table for each mode, by whether bytes remain. -/
theorem advanceStateMachine : Obligations.AdvanceStateMachine := by
  unfold Obligations.AdvanceStateMachine
  intro s t h
  cases hm : s.xfer.mode with
  | idle =>
    cases advance_row_idle h hm
    exact ⟨[], by simp, by simp⟩
  | tx =>
    by_cases hr : s.xfer.remaining = 0
    · cases advance_row_drain h (.inl hm) hr
      exact ⟨[], by simp, by simp [hr, dataWrites, dataReads]⟩
    · obtain ⟨hmode, hrem, es, ht, hw, hrd⟩ := advance_row_tx h hm hr
      exact ⟨es, ht, by simp [hr, hmode, hrem, hw, hrd]⟩
  | rx =>
    by_cases hr : s.xfer.remaining = 0
    · cases advance_row_drain h (.inr hm) hr
      exact ⟨[], by simp, by simp [hr, dataWrites, dataReads]⟩
    · obtain ⟨hmode, hrem, es, ht, hw, hrd⟩ := advance_row_rx h hm hr
      refine ⟨es, ht, ?_⟩
      by_cases hlast : s.xfer.remaining = 1
      · simp [hmode, hrem, hw, hrd, hlast]
      · simp [hr, hmode, hrem, hw, hrd, hlast]
  | txrx =>
    by_cases hr : s.xfer.remaining = 0
    · obtain ⟨hmode, hrem, es, ht, hw, hrd⟩ := advance_row_final h hm hr
      exact ⟨es, ht, by simp [hr, hmode, hrem, hw, hrd]⟩
    · obtain ⟨hmode, hrem, es, ht, hw, hrd⟩ := advance_row_txrx h hm hr
      exact ⟨es, ht, by simp [hr, hmode, hrem, hw, hrd]⟩

end Sys2Proof.Machine
end

section
/-! SUPPORT. The interrupt step and a round of an async transfer, through the advance they run (41_async.md R137,
43_serial_engine.md R175, 60_exceptions.md R203, R206). -/

namespace Sys2Proof.Machine

/-- `s` after a notification that raises no fault (60_exceptions.md R206). -/
def notified (s : State) : State :=
  { s with trace := s.trace ++ (if s.hook = 0 then [] else [.notify s.hook]) }

theorem notified_accesses (s : State) : Accesses [] [] s (notified s) := by
  refine ⟨_, rfl, ?_, ?_⟩ <;> split <;> rfl

theorem notify_eq {s : State} (h : HookAllowed s) : notify s = .ok (notified s) := by
  by_cases hh : s.hook = 0
  · have hf : s.par.unsetHookFaults = false := h.resolve_left (not_not_intro hh)
    have hquiet : notified s = s := by rw [notified, if_pos hh, List.append_nil]
    simp [notify, hh, hf, hquiet]
  · simp [notify, notified, State.emit, hh]

/-- An advance that raises no fault answers the interrupt's body, with the notification after it. -/
theorem interruptBody_of_advance {s u : State} (h : HookAllowed s) (ha : advance (interruptEntry s) = .ok u) :
    interruptBody s = .ok (notified u) := by
  have hu : HookAllowed u := by
    rw [advance_frame ha]
    exact h
  exact interruptBody_ok.2 ⟨u, ha, notify_eq hu⟩

/-- Settles O50: the advance after the entry is the one in mode Idle, and the notification follows it. -/
theorem interruptWhileIdle : Obligations.InterruptWhileIdle := by
  unfold Obligations.InterruptWhileIdle
  intro s hm
  refine ⟨advance_idle hm, fun hhook => ?_⟩
  rw [interruptStep, interruptBody_of_advance hhook (advance_idle hm)]
  simp [commit, notified, interruptEntry, State.putTc, State.emit, hm, setBit_tc_false]

end Sys2Proof.Machine
end

section
/-! SUPPORT. Rounds of an async transfer: what a round does through its advance, and an induction over the bytes of
the rounds (43_serial_engine.md R175, 60_exceptions.md R203). -/

namespace Sys2Proof.Machine

/-- The state in which the advance of a round runs: the exchange has completed with `d` and the interrupt has
entered. -/
def roundEntry (d : Byte) (s : State) : State :=
  interruptEntry (completeExchange d (if s.xferBusy then s else startExchange s))

section
variable (d : Byte) (s : State)

@[simp] theorem roundEntry_rxLatch : (roundEntry d s).rxLatch = d := rfl
@[simp] theorem roundEntry_xferBusy : (roundEntry d s).xferBusy = false := rfl

@[simp] theorem roundEntry_par : (roundEntry d s).par = s.par := by
  unfold roundEntry
  split <;> rfl

@[simp] theorem roundEntry_xfer : (roundEntry d s).xfer = s.xfer := by
  unfold roundEntry
  split <;> rfl

@[simp] theorem roundEntry_ghost : (roundEntry d s).ghost = s.ghost := by
  unfold roundEntry
  split <;> rfl

@[simp] theorem roundEntry_hook : (roundEntry d s).hook = s.hook := by
  unfold roundEntry
  split <;> rfl

@[simp] theorem roundEntry_mem : (roundEntry d s).mem = s.mem := by
  unfold roundEntry
  split <;> rfl

theorem roundEntry_accesses : Accesses [] [] s (roundEntry d s) := by
  unfold roundEntry
  split
  · exact ⟨[.xferDone s.txShift d, .irqTaken s.xfer.mode], by simp [interruptEntry], rfl, rfl⟩
  · exact ⟨[.xferStart s.txShift, .xferDone s.txShift d, .irqTaken s.xfer.mode], by simp [interruptEntry], rfl, rfl⟩

end

section
variable {d : Byte} {s u : State} (ha : advance (roundEntry d s) = .ok u)
include ha

theorem asyncRound_of_advance (h : HookAllowed s) : asyncRound d s = .ok (notified u) := by
  refine interruptBody_of_advance ?_ ha
  split <;> exact h

theorem advance_roundEntry_keeps : u.par = s.par ∧ u.hook = s.hook ∧ u.ghost = s.ghost := by
  rw [advance_frame ha]
  exact ⟨roundEntry_par d s, roundEntry_hook d s, roundEntry_ghost d s⟩

end

/-! ## One round, row by row (41_async.md R138 to R142) -/

/-- A round from `s` to `t`: it made the DataWrites `w` and the DataReads `r`, and left memory `m` and TransferState
`x`; the parameters, the hook and the regions stayed. -/
structure RoundDone (m : List Host.Cell) (x : Transfer) (w r : List Byte) (s t : State) : Prop where
  par : t.par = s.par
  hook : t.hook = s.hook
  ghost : t.ghost = s.ghost
  mem : t.mem = m
  xfer : t.xfer = x
  accesses : Accesses w r s t

theorem RoundDone.of_advance {d : Byte} {s u : State} (hhook : HookAllowed s)
    (ha : advance (roundEntry d s) = .ok u) {w r : List Byte} (hacc : Accesses w r (roundEntry d s) u) :
    ∃ t, asyncRound d s = .ok t ∧ RoundDone u.mem u.xfer w r s t := by
  obtain ⟨hpar, hhk, hghost⟩ := advance_roundEntry_keeps ha
  exact ⟨_, asyncRound_of_advance ha hhook, hpar, hhk, hghost, rfl, rfl,
    ((roundEntry_accesses d s).trans hacc).trans_quiet (notified_accesses u)⟩

section
variable {s : State} (d : Byte)

theorem roundEntry_mode {m : Mode} (hm : s.xfer.mode = m) : (roundEntry d s).xfer.mode = m := by
  rwa [roundEntry_xfer]

/-! The accesses of a round whose cursors point at existing bytes of their regions. -/

theorem sendByte_roundEntry (he : existsAt s.par s.xfer.txCur = true) (hlo : s.ghost.txLo ≤ s.xfer.txCur)
    (hhi : s.xfer.txCur < s.ghost.txHi) :
    sendByte (roundEntry d s).xfer.txCur (roundEntry d s) =
      .ok (acceptedWrite (Memory.read s.mem s.xfer.txCur) (roundEntry d s)) := by
  rw [sendByte_of_within (by simpa using he) (by simpa using hlo) (by simpa using hhi), dataWrite_accepted _ (roundEntry_xferBusy d s),
    roundEntry_mem, roundEntry_xfer]

theorem storeByte_roundEntry (he : existsAt s.par s.xfer.rxCur = true) (hlo : s.ghost.rxLo ≤ s.xfer.rxCur)
    (hhi : s.xfer.rxCur < s.ghost.rxHi) :
    storeByte (roundEntry d s).xfer.rxCur (roundEntry d s) =
      .ok { readDone (roundEntry d s) with mem := Memory.write s.mem s.xfer.rxCur d } := by
  rw [storeByte_of_within (by simpa using he) (by simpa using hlo) (by simpa using hhi), roundEntry_mem,
    roundEntry_xfer, roundEntry_rxLatch]

theorem storeByte_acceptedWrite (b : Byte) (he : existsAt s.par s.xfer.rxCur = true)
    (hlo : s.ghost.rxLo ≤ s.xfer.rxCur) (hhi : s.xfer.rxCur < s.ghost.rxHi) :
    storeByte (roundEntry d s).xfer.rxCur (acceptedWrite b (roundEntry d s)) =
      .ok { readDone (acceptedWrite b (roundEntry d s)) with mem := Memory.write s.mem s.xfer.rxCur d } := by
  rw [storeByte_of_within (by simpa [acceptedWrite] using he) (by simpa [acceptedWrite] using hlo)
    (by simpa [acceptedWrite] using hhi), roundEntry_xfer]
  simp [acceptedWrite]

end

section
variable {s : State} (hhook : HookAllowed s) (d : Byte)
include hhook

theorem asyncRound_idle (hm : s.xfer.mode = .idle) :
    ∃ t, asyncRound d s = .ok t ∧ RoundDone s.mem s.xfer [] [] s t := by
  simpa using RoundDone.of_advance hhook (advance_idle (roundEntry_mode d hm)) (.of_trace_eq rfl)

theorem asyncRound_drain (hm : s.xfer.mode = .tx) (hr : s.xfer.remaining = 0) :
    ∃ t, asyncRound d s = .ok t ∧ RoundDone s.mem { s.xfer with mode := .idle } [] [] s t := by
  have ha := (advance_tx (roundEntry_mode d hm)).trans (advanceTx_drains (by rwa [roundEntry_xfer]))
  simpa using RoundDone.of_advance hhook ha (.of_trace_eq rfl)

section
variable (hm : s.xfer.mode = .txrx) (hr : s.xfer.remaining = 0) (he : existsAt s.par s.xfer.rxCur = true)
  (hlo : s.ghost.rxLo ≤ s.xfer.rxCur) (hhi : s.xfer.rxCur < s.ghost.rxHi)
include hm hr he hlo hhi

theorem asyncRound_final :
    ∃ t, asyncRound d s = .ok t ∧
      RoundDone (Memory.write s.mem s.xfer.rxCur d) { s.xfer with mode := .idle } [] [d] s t := by
  have hm' := roundEntry_mode d hm
  have hr' : (roundEntry d s).xfer.remaining = 0 := by rwa [roundEntry_xfer]
  have hstore := storeByte_roundEntry d he hlo hhi
  have ha := (advance_txrx hm').trans ((advanceTxrx_final hr').trans (congrArg (Except.map toIdle) hstore))
  obtain ⟨-, -, hacc⟩ := advance_row_final ha hm' hr'
  simpa [readDone] using RoundDone.of_advance hhook ha hacc

end

variable (hr : s.xfer.remaining ≠ 0)
include hr

theorem asyncRound_rx (hm : s.xfer.mode = .rx) (he : existsAt s.par s.xfer.rxCur = true)
    (hlo : s.ghost.rxLo ≤ s.xfer.rxCur) (hhi : s.xfer.rxCur < s.ghost.rxHi) :
    ∃ t, asyncRound d s = .ok t ∧
      RoundDone (Memory.write s.mem s.xfer.rxCur d)
        { s.xfer with
          mode := if s.xfer.remaining = 1 then .idle else .rx
          rxCur := cursorNext s.par s.xfer.rxCur
          remaining := s.xfer.remaining - 1 } [] [d] s t := by
  have hm' := roundEntry_mode d hm
  have hr' : (roundEntry d s).xfer.remaining ≠ 0 := by rwa [roundEntry_xfer]
  have ha := (advance_rx hm').trans (advanceRx_of_ok hr' (storeByte_roundEntry d he hlo hhi))
  obtain ⟨-, -, hacc⟩ := advance_row_rx ha hm' hr'
  simpa [hm] using RoundDone.of_advance hhook ha hacc

variable (heTx : existsAt s.par s.xfer.txCur = true) (hloTx : s.ghost.txLo ≤ s.xfer.txCur)
  (hhiTx : s.xfer.txCur < s.ghost.txHi)
include heTx hloTx hhiTx

theorem asyncRound_tx (hm : s.xfer.mode = .tx) :
    ∃ t, asyncRound d s = .ok t ∧
      RoundDone s.mem
        { s.xfer with txCur := cursorNext s.par s.xfer.txCur, remaining := s.xfer.remaining - 1 }
        [Memory.read s.mem s.xfer.txCur] [] s t := by
  have hm' := roundEntry_mode d hm
  have hr' : (roundEntry d s).xfer.remaining ≠ 0 := by rwa [roundEntry_xfer]
  have ha := (advance_tx hm').trans (advanceTx_of_ok hr' (sendByte_roundEntry d heTx hloTx hhiTx))
  obtain ⟨-, -, hacc⟩ := advance_row_tx ha hm' hr'
  simpa [acceptedWrite] using RoundDone.of_advance hhook ha hacc

theorem asyncRound_txrx (hm : s.xfer.mode = .txrx) (heRx : existsAt s.par s.xfer.rxCur = true)
    (hloRx : s.ghost.rxLo ≤ s.xfer.rxCur) (hhiRx : s.xfer.rxCur < s.ghost.rxHi) :
    ∃ t, asyncRound d s = .ok t ∧
      RoundDone (Memory.write s.mem s.xfer.rxCur d)
        { s.xfer with
          txCur := cursorNext s.par s.xfer.txCur
          rxCur := cursorNext s.par s.xfer.rxCur
          remaining := s.xfer.remaining - 1 }
        [Memory.read s.mem s.xfer.txCur] [d] s t := by
  have hm' := roundEntry_mode d hm
  have hr' : (roundEntry d s).xfer.remaining ≠ 0 := by rwa [roundEntry_xfer]
  have hsend := sendByte_roundEntry d heTx hloTx hhiTx
  have ha := (advance_txrx hm').trans ((advanceTxrx_of_ok hr' hsend).trans
    (congrArg (Except.map _) (storeByte_acceptedWrite d _ heRx hloRx hhiRx)))
  obtain ⟨-, -, hacc⟩ := advance_row_txrx ha hm' hr'
  simpa [acceptedWrite, readDone] using RoundDone.of_advance hhook ha hacc

end

/-! ## Many rounds -/

theorem asyncRounds_concat {ds : List Byte} {d : Byte} {s t u : State} (h : asyncRounds ds s = .ok t)
    (h' : asyncRound d t = .ok u) : asyncRounds (ds ++ [d]) s = .ok u := by
  induction ds generalizing s with
  | nil =>
    cases h
    simp only [List.nil_append, asyncRounds, h']
  | cons e es ih =>
    simp only [List.cons_append, asyncRounds] at h ⊢
    split at h
    · cases h
    · exact ih h

/-- A relation between the bytes of the rounds so far and the state holds after all rounds, if it holds before the
first and every round answers a state and keeps it. -/
theorem asyncRounds_induction {I : List Byte → State → Prop} {ds : List Byte} {s : State} (hstart : I [] s)
    (hround : ∀ es d t, es.length < ds.length → I es t → ∃ u, asyncRound d t = .ok u ∧ I (es ++ [d]) u) :
    ∃ t, asyncRounds ds s = .ok t ∧ I ds t := by
  induction ds using List.reverseRecOn with
  | nil => exact ⟨s, rfl, hstart⟩
  | append_singleton ds d ih =>
    have hlen : (ds ++ [d]).length = ds.length + 1 := List.length_append
    obtain ⟨t, ht, hI⟩ := ih fun es e t hlt => hround es e t (by omega)
    obtain ⟨u, hu, hI'⟩ := hround ds d t (by omega) hI
    exact ⟨u, asyncRounds_concat ht hu, hI'⟩

/-- The rounds of a non-empty list are those of all its bytes but the last, and one more. -/
theorem asyncRounds_dropLast {ds : List Byte} {s t u : State} (hne : ds ≠ []) (h : asyncRounds ds.dropLast s = .ok t)
    (h' : asyncRound (ds.getLast hne) t = .ok u) : asyncRounds ds s = .ok u :=
  List.dropLast_append_getLast hne ▸ asyncRounds_concat h h'

end Sys2Proof.Machine
end


section
/-! SUPPORT. A run of bytes stored one after the other: what each address reads as (20_memory.md R62, R63). -/

namespace Sys2Proof.Machine

/-- Memory after the bytes of a list are written at `b`, `b + 1`, …, in order. -/
def storeBytes (m : List Host.Cell) (b : Nat) : List Byte → List Host.Cell
  | [] => m
  | d :: ds => storeBytes (Memory.write m b d) (b + 1) ds

theorem storeBytes_concat (m : List Host.Cell) (b : Nat) (ds : List Byte) (d : Byte) :
    storeBytes m b (ds ++ [d]) = Memory.write (storeBytes m b ds) (b + ds.length) d := by
  induction ds generalizing m b with
  | nil => rfl
  | cons e es ih =>
    rw [List.cons_append, storeBytes, storeBytes, ih, List.length_cons, Nat.add_right_comm, Nat.add_assoc]

section
variable {m : List Host.Cell} (hwf : Memory.wf m = true)
include hwf

theorem read_storeBytes_outside {b x : Nat} {ds : List Byte} (hx : x < b ∨ b + ds.length ≤ x) :
    Memory.read (storeBytes m b ds) x = Memory.read m x := by
  induction ds generalizing m b with
  | nil => rfl
  | cons d ds ih =>
    rw [List.length_cons] at hx
    rw [storeBytes, ih (Memory.wf_write hwf) (by omega), Memory.read_write hwf, if_neg (by omega)]

theorem read_storeBytes_slot {b k : Nat} {ds : List Byte} (hk : k < ds.length) :
    ds[k]? = some (Memory.read (storeBytes m b ds) (b + k)) := by
  induction ds generalizing m b k with
  | nil => exact absurd hk (Nat.not_lt_zero k)
  | cons d ds ih =>
    have hwf' := Memory.wf_write (a := b) (v := d) hwf
    cases k with
    | zero =>
      have hfirst : Memory.read (storeBytes m b (d :: ds)) b = d := by
        rw [storeBytes, read_storeBytes_outside hwf' (.inl (Nat.lt_succ_self b)), Memory.read_write hwf, if_pos rfl]
      exact congrArg some hfirst.symm
    | succ k =>
      have hrest := ih hwf' (b := b + 1) (Nat.lt_of_succ_lt_succ hk)
      rw [List.getElem?_cons_succ, hrest, storeBytes, Nat.add_right_comm, Nat.add_assoc]

end

end Sys2Proof.Machine
end

section
/-! SUPPORT. The transmit law: after k DataWrites the transfer stands at the byte k of its buffer (41_async.md
R143). -/

namespace Sys2Proof.Machine

/-- The cursor after the byte at offset `k`, modulo its width (20_memory.md R66). -/
theorem cursorNext_add (p : Params) (b k : Nat) : cursorNext p (b + k) = (b + (k + 1)) % 2 ^ p.addrBits := rfl

/-- TX_ASYNC was issued in `s`, and since then the first `k` bytes of its buffer were written to DATA. -/
structure TxRun (s : State) (k : Nat) (t : State) : Prop where
  par : t.par = s.par
  hook : t.hook = s.hook
  ghost : t.ghost = { s.ghost with txLo := s.arg.tx, txHi := s.arg.tx + s.arg.size }
  mem : t.mem = s.mem
  mode : t.xfer.mode = .tx
  txCur : t.xfer.txCur = (s.arg.tx + k) % 2 ^ s.par.addrBits
  remaining : t.xfer.remaining = s.arg.size - k
  accesses : Accesses ((List.range k).map fun j => Memory.read s.mem (s.arg.tx + j)) [] s t

theorem TxRun.hookAllowed {s t : State} {k : Nat} (h : TxRun s k t) (hhook : HookAllowed s) : HookAllowed t := by
  rwa [HookAllowed, h.hook, h.par]

section
variable {s : State} (hfit : s.arg.tx + s.arg.size ≤ 2 ^ s.par.addrBits)
  (hbuf : BufferExists s.par s.arg.tx s.arg.size)
include hfit hbuf

/-- The command itself writes the first byte. -/
theorem TxRun.start (hr : s.xfer.remaining = 0) (hn : 0 < s.arg.size) (hwr : WriteAllowed s) :
    ∃ t, exec .txAsync s = .next t ∧ TxRun s 1 t := by
  obtain ⟨r, hd⟩ := dataWrite_answers hwr (Memory.read s.mem s.arg.tx)
  obtain ⟨hpar, -⟩ := dataWrite_keeps hd
  obtain ⟨hmem, -, hhook⟩ := dataWrite_keeps_data hd
  have harm := (armTx_sends hfit hn (hbuf 0 hn)).trans (congrArg _ hd)
  exact ⟨_, (exec_txAsync_admitted hr hn).trans (commit_completeArming_ok harm _ _),
    hpar, hhook, rfl, hmem, rfl, rfl, rfl, (dataWrite_accesses hd).trans_quiet ⟨[.done .txAsync .ok], rfl, rfl, rfl⟩⟩

/-- While bytes remain a round writes the next one. -/
theorem TxRun.round {k : Nat} {t : State} (h : TxRun s k t) (hk : k < s.arg.size) (hhook : HookAllowed s) (d : Byte) :
    ∃ u, asyncRound d t = .ok u ∧ TxRun s (k + 1) u := by
  have hcur : t.xfer.txCur = s.arg.tx + k := h.txCur.trans (Nat.mod_eq_of_lt (by omega))
  obtain ⟨u, hu, hd⟩ := asyncRound_tx (h.hookAllowed hhook) d (by rw [h.remaining]; omega)
    (by rw [h.par, hcur]; exact hbuf k hk) (by simp [h.ghost, hcur]) (by simp [h.ghost, hcur, hk]) h.mode
  refine ⟨u, hu, hd.par.trans h.par, hd.hook.trans h.hook, hd.ghost.trans h.ghost, hd.mem.trans h.mem, ?_, ?_, ?_, ?_⟩
  · rw [hd.xfer, h.mode]
  · rw [hd.xfer, hcur, h.par, cursorNext_add]
  · rw [hd.xfer, h.remaining, Nat.sub_sub]
  · simpa [List.range_succ, h.mem, hcur] using h.accesses.trans hd.accesses

end

/-- Settles O43: the command writes the first byte, each round but the last the next one, the last round drains to Idle,
and a round in Idle makes no access. -/
theorem asyncTransmitLaw : Obligations.AsyncTransmitLaw := by
  unfold Obligations.AsyncTransmitLaw
  intro s ds _ hr hn hlen hfit hbuf hwr hhook
  have hne : ds ≠ [] := List.length_pos_iff.1 (hlen ▸ hn)
  have hdrop : ds.dropLast.length + 1 = s.arg.size := by
    rw [List.length_dropLast]
    omega
  obtain ⟨t, hx, hstart⟩ := TxRun.start hfit hbuf hr hn hwr
  obtain ⟨u, hu, hrun⟩ := asyncRounds_induction (I := fun es t => TxRun s (es.length + 1) t) (ds := ds.dropLast) hstart
    fun es d t hes h => by
      rw [List.length_append]
      exact h.round hfit hbuf (by omega) hhook d
  rw [hdrop] at hrun
  have hleft : u.xfer.remaining = 0 := by rw [hrun.remaining, Nat.sub_self]
  obtain ⟨v, hv, hdrain⟩ := asyncRound_drain (hrun.hookAllowed hhook) (ds.getLast hne) hrun.mode hleft
  have hidle : v.xfer.mode = .idle := congrArg Transfer.mode hdrain.xfer
  have hnone : v.xfer.remaining = 0 := (congrArg Transfer.remaining hdrain.xfer).trans hleft
  have hhookV : HookAllowed v := by
    rw [HookAllowed, hdrain.hook, hdrain.par]
    exact hrun.hookAllowed hhook
  refine ⟨t, u, v, hx, hu, hleft, asyncRounds_dropLast hne hu hv, hidle, hnone,
    (hrun.accesses.trans_quiet hdrain.accesses).dataWrites_eq, hdrain.mem.trans hrun.mem, fun d => ?_⟩
  obtain ⟨x, hx, hmore⟩ := asyncRound_idle hhookV d hidle
  exact ⟨x, hx, by rw [hmore.accesses.dataWrites_eq, List.append_nil], by rw [hmore.xfer, hnone]⟩

end Sys2Proof.Machine
end

section
/-! SUPPORT. The receive law: the bytes of the rounds so far are in the first slots of the buffer (41_async.md
R144). -/

namespace Sys2Proof.Machine

/-- RX_ASYNC was issued in `s`, and since then rounds stored the bytes `ds` in the first slots of its buffer. -/
structure RxRun (s : State) (ds : List Byte) (t : State) : Prop where
  par : t.par = s.par
  hook : t.hook = s.hook
  ghost : t.ghost = { s.ghost with rxLo := s.arg.rx, rxHi := s.arg.rx + s.arg.size }
  mem : t.mem = storeBytes s.mem s.arg.rx ds
  mode : t.xfer.mode = if ds.length = s.arg.size then .idle else .rx
  rxCur : t.xfer.rxCur = (s.arg.rx + ds.length) % 2 ^ s.par.addrBits
  remaining : t.xfer.remaining = s.arg.size - ds.length
  accesses : Accesses [] ds s t

theorem RxRun.hookAllowed {s t : State} {ds : List Byte} (h : RxRun s ds t) (hhook : HookAllowed s) :
    HookAllowed t := by
  rwa [HookAllowed, h.hook, h.par]

section
variable {s : State} (hfit : s.arg.rx + s.arg.size ≤ 2 ^ s.par.addrBits)
include hfit

theorem RxRun.start (hr : s.xfer.remaining = 0) (hn : 0 < s.arg.size) :
    ∃ t, exec .rxAsync s = .next t ∧ RxRun s [] t := by
  have hcur : s.arg.rx = (s.arg.rx + 0) % 2 ^ s.par.addrBits := (Nat.mod_eq_of_lt (by omega)).symm
  exact ⟨_, exec_rxAsync_arms hr (.inr hfit), rfl, rfl, rfl, rfl, (if_neg (Nat.ne_of_lt hn)).symm, hcur, rfl,
    [.done .rxAsync .ok], rfl, rfl, rfl⟩

/-- While bytes remain a round stores its byte in the next slot. -/
theorem RxRun.round (hbuf : BufferExists s.par s.arg.rx s.arg.size) {ds : List Byte} {t : State} (h : RxRun s ds t)
    (hk : ds.length < s.arg.size) (hhook : HookAllowed s) (d : Byte) :
    ∃ u, asyncRound d t = .ok u ∧ RxRun s (ds ++ [d]) u := by
  have hcur : t.xfer.rxCur = s.arg.rx + ds.length := h.rxCur.trans (Nat.mod_eq_of_lt (by omega))
  obtain ⟨u, hu, hd⟩ := asyncRound_rx (h.hookAllowed hhook) d (by rw [h.remaining]; omega)
    (by rw [h.mode, if_neg (Nat.ne_of_lt hk)]) (by rw [h.par, hcur]; exact hbuf _ hk) (by simp [h.ghost, hcur])
    (by simp [h.ghost, hcur, hk])
  have hlen : (ds ++ [d]).length = ds.length + 1 := List.length_append
  have hlast : t.xfer.remaining = 1 ↔ (ds ++ [d]).length = s.arg.size := by
    rw [h.remaining, hlen]
    omega
  refine ⟨u, hu, hd.par.trans h.par, hd.hook.trans h.hook, hd.ghost.trans h.ghost, ?_, ?_, ?_, ?_,
    h.accesses.trans hd.accesses⟩
  · rw [hd.mem, h.mem, hcur, storeBytes_concat]
  · simp only [hd.xfer, hlast]
  · rw [hd.xfer, hcur, h.par, cursorNext_add, hlen]
  · rw [hd.xfer, h.remaining, hlen, Nat.sub_sub]

end

/-- Settles O44: every round stores its byte in the next slot, and the stored run of bytes is read back. -/
theorem asyncReceiveLaw : Obligations.AsyncReceiveLaw := by
  unfold Obligations.AsyncReceiveLaw
  intro s ds _ hr hn hlen hfit hbuf hwf hhook
  obtain ⟨t, hx, hstart⟩ := RxRun.start hfit hr hn
  obtain ⟨v, hv, hrun⟩ := asyncRounds_induction (I := RxRun s) hstart
    fun es d t hes h => h.round hfit hbuf (hlen ▸ hes) hhook d
  refine ⟨t, v, hx, hv, ?_, ?_, ?_, hrun.accesses.dataReads_eq, ?_, fun k hk => ?_, fun a ha => ?_⟩
  · rw [hrun.mode, if_pos hlen]
  · rw [hrun.remaining, hlen, Nat.sub_self]
  · rw [hrun.rxCur, hlen]
  · rw [hrun.accesses.dataWrites_eq, List.append_nil]
  · rw [hrun.mem]
    exact read_storeBytes_slot hwf (hlen ▸ hk)
  · rw [hrun.mem]
    exact read_storeBytes_outside hwf (hlen ▸ ha)

end Sys2Proof.Machine
end

section
/-! SUPPORT. The transmit-receive law: one byte more is written than stored, until the final read (41_async.md
R145). -/

namespace Sys2Proof.Machine

/-- TXRX_ASYNC was issued in `s`, and since then rounds stored the bytes `ds` in the first slots of its receive buffer,
and one DataWrite more was made. The bytes written are left open, as the buffers may overlap. -/
structure TxrxRun (s : State) (ds : List Byte) (t : State) : Prop where
  par : t.par = s.par
  hook : t.hook = s.hook
  ghost : t.ghost =
    { txLo := s.arg.tx, txHi := s.arg.tx + s.arg.size, rxLo := s.arg.rx, rxHi := s.arg.rx + s.arg.size }
  mem : t.mem = storeBytes s.mem s.arg.rx ds
  mode : t.xfer.mode = .txrx
  txCur : t.xfer.txCur = (s.arg.tx + (ds.length + 1)) % 2 ^ s.par.addrBits
  rxCur : t.xfer.rxCur = s.arg.rx + ds.length
  remaining : t.xfer.remaining = s.arg.size - (ds.length + 1)
  accesses : ∃ w, w.length = ds.length + 1 ∧ Accesses w ds s t

theorem TxrxRun.hookAllowed {s t : State} {ds : List Byte} (h : TxrxRun s ds t) (hhook : HookAllowed s) :
    HookAllowed t := by
  rwa [HookAllowed, h.hook, h.par]

section
variable {s : State} (hfitTx : s.arg.tx + s.arg.size ≤ 2 ^ s.par.addrBits)
  (hfitRx : s.arg.rx + s.arg.size ≤ 2 ^ s.par.addrBits) (hbufTx : BufferExists s.par s.arg.tx s.arg.size)
include hfitTx hfitRx hbufTx

/-- The command itself writes the first byte. -/
theorem TxrxRun.start (hr : s.xfer.remaining = 0) (hn : 0 < s.arg.size) (hwr : WriteAllowed s) :
    ∃ t, exec .txrxAsync s = .next t ∧ TxrxRun s [] t := by
  obtain ⟨r, hd⟩ := dataWrite_answers hwr (Memory.read s.mem s.arg.tx)
  obtain ⟨hpar, -⟩ := dataWrite_keeps hd
  obtain ⟨hmem, -, hhook⟩ := dataWrite_keeps_data hd
  have harm := (armTxrx_sends hfitTx hn (hbufTx 0 hn) hfitRx).trans (congrArg _ hd)
  exact ⟨_, (exec_txrxAsync_admitted hr hn).trans (commit_completeArming_ok harm _ _),
    hpar, hhook, rfl, hmem, rfl, rfl, rfl, rfl, [Memory.read s.mem s.arg.tx], rfl,
    (dataWrite_accesses hd).trans_quiet ⟨[.done .txrxAsync .ok], rfl, rfl, rfl⟩⟩

variable (hbufRx : BufferExists s.par s.arg.rx s.arg.size) {t : State} {ds : List Byte} (h : TxrxRun s ds t)
  (hhook : HookAllowed s)
include hbufRx h hhook

/-- While bytes remain a round writes the next byte and stores its own in the next slot. -/
theorem TxrxRun.round (hk : ds.length + 1 < s.arg.size) (d : Byte) :
    ∃ u, asyncRound d t = .ok u ∧ TxrxRun s (ds ++ [d]) u := by
  have hkRx : ds.length < s.arg.size := Nat.lt_of_succ_lt hk
  have hcur : t.xfer.txCur = s.arg.tx + (ds.length + 1) := h.txCur.trans (Nat.mod_eq_of_lt (by omega))
  have hcurRx : cursorNext s.par (s.arg.rx + ds.length) = s.arg.rx + (ds.length + 1) := cursorNext_of_lt (by omega)
  obtain ⟨u, hu, hd⟩ := asyncRound_txrx (h.hookAllowed hhook) d (by rw [h.remaining]; omega)
    (by rw [h.par, hcur]; exact hbufTx _ hk) (by simp [h.ghost, hcur]) (by simp [h.ghost, hcur, hk]) h.mode
    (by rw [h.par, h.rxCur]; exact hbufRx _ hkRx) (by simp [h.ghost, h.rxCur]) (by simp [h.ghost, h.rxCur, hkRx])
  have hlen : (ds ++ [d]).length = ds.length + 1 := List.length_append
  obtain ⟨w, hw, hacc⟩ := h.accesses
  refine ⟨u, hu, hd.par.trans h.par, hd.hook.trans h.hook, hd.ghost.trans h.ghost, ?_, ?_, ?_, ?_, ?_,
    _, ?_, hacc.trans hd.accesses⟩
  · rw [hd.mem, h.mem, h.rxCur, storeBytes_concat]
  · rw [hd.xfer, h.mode]
  · rw [hd.xfer, hcur, h.par, cursorNext_add, hlen]
  · rw [hd.xfer, h.rxCur, h.par, hcurRx, hlen]
  · rw [hd.xfer, h.remaining, hlen, Nat.sub_sub]
  · rw [List.length_append, hw, hlen]
    rfl

end

/-- Settles O45: the command writes the first byte, each round but the last writes one and stores one, and the last
makes the final read. -/
theorem asyncTransmitReceiveLaw : Obligations.AsyncTransmitReceiveLaw := by
  unfold Obligations.AsyncTransmitReceiveLaw
  intro s ds _ hr hn hlen hfitTx hfitRx hbufTx hbufRx hwr hwf hhook
  have hne : ds ≠ [] := List.length_pos_iff.1 (hlen ▸ hn)
  have hdrop : ds.dropLast.length + 1 = s.arg.size := by
    rw [List.length_dropLast]
    omega
  obtain ⟨t, hx, hstart⟩ := TxrxRun.start hfitTx hfitRx hbufTx hr hn hwr
  obtain ⟨u, hu, hrun⟩ := asyncRounds_induction (I := TxrxRun s) (ds := ds.dropLast) hstart
    fun es d t hes h => h.round hfitTx hfitRx hbufTx hbufRx hhook (by omega) d
  have hk : ds.dropLast.length < s.arg.size := by omega
  have hleft : u.xfer.remaining = 0 := by rw [hrun.remaining, hdrop, Nat.sub_self]
  obtain ⟨v, hv, hfinal⟩ := asyncRound_final (hrun.hookAllowed hhook) (ds.getLast hne) hrun.mode hleft
    (by rw [hrun.par, hrun.rxCur]; exact hbufRx _ hk) (by simp [hrun.ghost, hrun.rxCur])
    (by simp only [hrun.ghost, hrun.rxCur]; omega)
  have hmem : v.mem = storeBytes s.mem s.arg.rx ds := by
    rw [hfinal.mem, hrun.mem, hrun.rxCur, ← storeBytes_concat, List.dropLast_append_getLast]
  obtain ⟨w, hw, hacc⟩ := hrun.accesses
  have hall := hacc.trans hfinal.accesses
  rw [List.append_nil, List.dropLast_append_getLast] at hall
  refine ⟨t, v, hx, asyncRounds_dropLast hne hu hv, congrArg Transfer.mode hfinal.xfer, ?_, ?_, ?_, ?_,
    hall.dataReads_eq, fun k hk => ?_, fun a ha => ?_⟩
  · rw [hfinal.xfer, hleft]
  · rw [hfinal.xfer, hrun.txCur, hdrop]
  · rw [hfinal.xfer, hrun.rxCur]
    omega
  · rw [hall.dataWrites_eq, List.length_append, hw, hdrop]
  · rw [hmem]
    exact read_storeBytes_slot hwf (hlen ▸ hk)
  · rw [hmem]
    exact read_storeBytes_outside hwf (hlen ▸ ha)

end Sys2Proof.Machine
end

section
/-! SUPPORT. The foreground with no other agent enabled (00_scope.md R4, 42_control.md R164). -/

namespace Sys2Proof.Machine

theorem eq_foreground_of_enabled {s : State} {m : Move} (hirq : s.irqPending = false) (hbusy : s.xferBusy = false)
    (hpeer : peerEnabled s = false) (h : enabled s m = true) : m = .foreground := by
  obtain ⟨-, hagent⟩ := Bool.and_eq_true_iff.1 h
  cases m with
  | foreground => rfl
  | interrupt => exact absurd hagent (by simp [hirq])
  | exchangeDone b => exact absurd hagent (by simp [hbusy])
  | peerStart | peerWait => exact absurd hagent (by simp [hpeer])

theorem enabled_foreground_of_fetch {s : State} {op : HostOp} (hf : s.fault = 0x00#8)
    (hop : s.ops[s.cpc]? = some op) : enabled s .foreground = true := by
  obtain ⟨hlt, -⟩ := List.getElem?_eq_some_iff.1 hop
  simp [enabled, foregroundEnabled, hf, hlt]

/-- Settles O7: some move is next as the foreground has one, and no other agent does. -/
theorem foregroundRunsAlone : Obligations.ForegroundRunsAlone := by
  unfold Obligations.ForegroundRunsAlone
  intro s op hf hk hop hirq hbusy hpeer
  obtain ⟨m, hm⟩ := Option.isSome_iff_exists.1 (nextMove_isSome (enabled_foreground_of_fetch hf hop))
  obtain rfl := eq_foreground_of_enabled hirq hbusy hpeer (enabled_of_nextMove hm)
  exact ⟨hm, (step_of_nextMove hm).trans (congrArg settleStep (foregroundStep_of_fetch hk hop))⟩

end Sys2Proof.Machine
end

section
/-! SUPPORT. The configuration and control commands: the bits they write, an equation for each outcome, and what they
leave (42_control.md R150 to R161). -/

namespace Sys2Proof.Machine

/-! ## Bits -/

theorem bit_setBit_same (v : Byte) {k : Nat} (b : Bool) (hk : k < 8) : bit (setBit v k b) k = b :=
  (bit_setBit v k b k hk).trans (if_pos rfl)

theorem bit_setBit_of_ne (v : Byte) {k j : Nat} (b : Bool) (hk : k < 8) (hj : j ≠ k) :
    bit (setBit v k b) j = bit v j :=
  (bit_setBit v k b j hk).trans (if_neg hj)

/-- A default configuration, its role written last, is legal (42_control.md R152, R153). -/
theorem bit_default_legal (v : Byte) (role : Bool) : bit (setBit (setBit v 7 false) 4 role) 7 = false :=
  (bit_setBit_of_ne _ _ (by decide) (by decide)).trans (bit_setBit_same _ _ (by decide))

theorem bit_ctrlImage_ie (g : Byte) : bit (ctrlImage g) 7 = false := by
  revert g
  decide

/-- The low six bits of CTRL are those of the configuration value (30_encoding.md R87). -/
theorem bit_ctrlImage_of_lt (g : Byte) {k : Nat} (hk : k < 6) : bit (ctrlImage g) k = bit g k := by
  calc bit (ctrlImage g) k = if k < 6 then (g.extractLsb' 0 6).getLsbD k else (1#2).getLsbD (k - 6) :=
        BitVec.getLsbD_append
    _ = bit g k := by simp [bit, hk]

/-! ## Aborting, and applying a configuration -/

theorem abortExchange_eq (s : State) : abortExchange s = { s with
    xferBusy := false, trace := s.trace ++ (if s.xferBusy then [.xferAbort] else []) } := by
  rw [abortExchange_frame, abortExchange]
  cases s.xferBusy
  · simp
  · rfl

theorem applyConfig_eq (op : Instr) (g : Byte) (s : State) : applyConfig op g s = { s with
    ctrl := ctrlImage g, status := setBit (setBit s.status 0 (bit g 6)) 7 false, xferBusy := false,
    result := 0x00#8, cpc := s.cpc + 1,
    trace := s.trace ++ (if s.xferBusy then [.xferAbort] else []) ++ [.done op .ok] } := by
  rw [applyConfig, abortExchange_eq]
  rfl

theorem configApplied_applyConfig (op : Instr) (g : Byte) (s : State) :
    ConfigApplied op g s (applyConfig op g s) := by
  rw [applyConfig_eq]
  refine ⟨⟨bit_ctrlImage_ie g, ctrlImage_en g, fun k hk => bit_ctrlImage_of_lt g hk⟩,
    ⟨bit_setBit_same _ _ (by decide), ?_, fun k hpos hk => ?_⟩, rfl⟩
  · rw [bit_setBit_of_ne _ _ (by decide) (by decide), bit_setBit_same _ _ (by decide)]
  · rw [bit_setBit_of_ne _ _ (by decide) (by omega), bit_setBit_of_ne _ _ (by decide) (by omega)]

/-! ## INIT and DEINIT -/

theorem exec_init_illegal {s : State} (h : bit s.arg.cfg 7 = true) :
    exec .init s = .next (raiseFault ⟨.illegalConfig, s.arg.cfg.toNat⟩ s) := by
  simp only [exec, execInit, if_pos h, commit]

theorem exec_init_legal {s : State} (h : bit s.arg.cfg 7 = false) :
    exec .init s = .next (applyConfig .init s.arg.cfg s) := by
  simp only [exec, execInit, h, Bool.false_eq_true, if_false, commit]

theorem exec_deinit (s : State) : exec .deinit s = .next { s with
    ctrl := 0x00#8, status := 0x00#8, xferBusy := false, result := 0x00#8, cpc := s.cpc + 1,
    trace := s.trace ++ (if s.xferBusy then [.xferAbort] else []) ++ [.done .deinit .ok] } := by
  rw [exec, execDeinit, abortExchange_eq]
  rfl

/-- Settles O18: INIT tests bit 7 of ARG_CFG, then applies it. -/
theorem initAppliesConfig : Obligations.InitAppliesConfig := by
  unfold Obligations.InitAppliesConfig
  exact ⟨decode_encode .init, fun s =>
    ⟨exec_init_illegal, fun h => ⟨_, exec_init_legal h, configApplied_applyConfig _ _ s⟩⟩⟩

/-- Settles O19: the parameter configurations are legal with the role they name, and both commands apply theirs. -/
theorem defaultInitsApplyParameters : Obligations.DefaultInitsApplyParameters := by
  unfold Obligations.DefaultInitsApplyParameters
  refine ⟨decode_encode .initCtrlDefault, decode_encode .initPeriphDefault, fun s => ⟨?_, ?_⟩⟩
  · exact ⟨bit_default_legal _ true, bit_setBit_same _ _ (by decide), _, rfl, configApplied_applyConfig _ _ s⟩
  · exact ⟨bit_default_legal _ false, bit_setBit_same _ _ (by decide), _, rfl, configApplied_applyConfig _ _ s⟩

/-- Settles O20: `exec_deinit`. -/
theorem deinitZeroesControl : Obligations.DeinitZeroesControl := by
  unfold Obligations.DeinitZeroesControl
  exact ⟨decode_encode .deinit, exec_deinit⟩

/-- Settles O21: CTRL depends on g alone, and STATUS on g and the STATUS before, which is 0 after DEINIT as at
reset. -/
theorem reinitialiseIsIdempotent : Obligations.ReinitialiseIsIdempotent := by
  unfold Obligations.ReinitialiseIsIdempotent
  intro g s hg
  refine ⟨_, _, _, exec_deinit s, exec_init_legal hg, exec_init_legal hg, rfl, ?_⟩
  rw [applyConfig_eq, applyConfig_eq]
  rfl

/-! ## The hook, IE and EN -/

/-- Settles O22: SET_HOOK is one update of the state. -/
theorem setHookStoresHook : Obligations.SetHookStoresHook := by
  unfold Obligations.SetHookStoresHook
  exact ⟨decode_encode .setHook, fun _ => rfl⟩

/-- Settles O23: both commands write bit 7 of CTRL, and TC, if set, makes the interrupt pending with it. -/
theorem irqCommandsWriteIe : Obligations.IrqCommandsWriteIe := by
  unfold Obligations.IrqCommandsWriteIe
  refine ⟨decode_encode .irqEnable, decode_encode .irqDisable, fun s => ?_⟩
  have hie : ∀ b, bit (setBit s.ctrl 7 b) 7 = b := fun b => bit_setBit_same s.ctrl b (by decide)
  have hrest : ∀ b, ∀ k < 7, bit (setBit s.ctrl 7 b) k = bit s.ctrl k :=
    fun b k hk => bit_setBit_of_ne s.ctrl b (by decide) (Nat.ne_of_lt hk)
  have hpending : s.tc = true → (s.tc && bit (setBit s.ctrl 7 true) 7) = true :=
    fun htc => Bool.and_eq_true_iff.2 ⟨htc, hie true⟩
  exact ⟨⟨_, rfl, hie true, hrest true, hpending, rfl⟩, _, rfl, hie false, hrest false, rfl⟩

theorem exec_busDisable (s : State) : exec .busDisable s = .next { s with
    ctrl := setBit s.ctrl 6 false, xferBusy := false, result := 0x00#8, cpc := s.cpc + 1,
    trace := s.trace ++ (if s.xferBusy then [.xferAbort] else []) ++ [.done .busDisable .ok] } := by
  rw [exec, execBusDisable, abortExchange_eq]
  rfl

/-- Settles O24: both commands write bit 6 of CTRL, BUS_DISABLE after the abort. -/
theorem busCommandsWriteEn : Obligations.BusCommandsWriteEn := by
  unfold Obligations.BusCommandsWriteEn
  refine ⟨decode_encode .busEnable, decode_encode .busDisable, fun s => ?_⟩
  have hen : ∀ b, bit (setBit s.ctrl 6 b) 6 = b := fun b => bit_setBit_same s.ctrl b (by decide)
  have hrest : ∀ b k, k ≠ 6 → bit (setBit s.ctrl 6 b) k = bit s.ctrl k :=
    fun b k hk => bit_setBit_of_ne s.ctrl b (by decide) hk
  exact ⟨⟨_, rfl, hen true, hrest true, rfl⟩, _, exec_busDisable s, hen false, hrest false, rfl⟩

/-! ## The frame (42_control.md R155) -/

/-- What a configuration or control command may write: CTRL, STATUS, S.hook, S.xfer_busy, RESULT, S.cpc, the trace and
S.fault, the first three as far as the command writes them. -/
structure ControlFrame (i : Instr) (s t : State) : Prop where
  rest : t = { s with
    ctrl := t.ctrl, status := t.status, hook := t.hook, xferBusy := t.xferBusy, result := t.result, cpc := t.cpc,
    trace := t.trace, fault := t.fault }
  hook : i ≠ .setHook → t.hook = s.hook
  status : i ∈ [.setHook, .irqEnable, .irqDisable, .busEnable, .busDisable] → t.status = s.status
  ctrl : i = .setHook → t.ctrl = s.ctrl

/-- The commands that apply a configuration are none of those that keep STATUS or CTRL. -/
theorem ControlFrame.of_applyConfig {op : Instr} (h : op ∈ [.init, .initCtrlDefault, .initPeriphDefault]) (g : Byte)
    (s : State) : ControlFrame op s (applyConfig op g s) := by
  rw [applyConfig_eq]
  have disjoint : ∀ i ∈ [Instr.init, .initCtrlDefault, .initPeriphDefault],
      i ∉ [Instr.setHook, .irqEnable, .irqDisable, .busEnable, .busDisable] := by decide
  refine ⟨rfl, fun _ => rfl, fun hop => absurd hop (disjoint op h), ?_⟩
  rintro rfl
  exact absurd h (by decide)

theorem ControlFrame.of_init {s t : State} (h : exec .init s = .next t) : ControlFrame .init s t := by
  cases hbit : bit s.arg.cfg 7
  · cases (exec_init_legal hbit).symm.trans h
    exact .of_applyConfig (by decide) _ s
  · cases (exec_init_illegal hbit).symm.trans h
    exact ⟨rfl, fun _ => rfl, fun _ => rfl, fun _ => rfl⟩

theorem controlFrame_of_exec {i : Instr} {s t : State}
    (hi : i ∈ [.init, .deinit, .initCtrlDefault, .initPeriphDefault, .setHook, .irqEnable, .irqDisable, .busEnable,
      .busDisable]) (h : exec i s = .next t) : ControlFrame i s t := by
  cases i with
  | init => exact .of_init h
  | initCtrlDefault | initPeriphDefault =>
    cases h
    exact .of_applyConfig (by decide) _ s
  | deinit =>
    cases (exec_deinit s).symm.trans h
    exact ⟨rfl, fun _ => rfl, fun hkept => absurd hkept (by decide), nofun⟩
  | busDisable =>
    cases (exec_busDisable s).symm.trans h
    exact ⟨rfl, fun _ => rfl, fun _ => rfl, nofun⟩
  | irqEnable | irqDisable | busEnable =>
    cases h
    exact ⟨rfl, fun _ => rfl, fun _ => rfl, nofun⟩
  | setHook =>
    cases h
    exact ⟨rfl, fun hne => absurd rfl hne, fun _ => rfl, fun _ => rfl⟩
  | tx | rx | txrx | txAsync | rxAsync | txrxAsync => exact absurd hi (by decide)

/-- Settles O25: `controlFrame_of_exec`, field by field. -/
theorem controlCommandsFrame : Obligations.ControlCommandsFrame := by
  unfold Obligations.ControlCommandsFrame
  intro i s t hi hx
  obtain ⟨hrest, hhook, hstatus, hctrl⟩ := controlFrame_of_exec hi hx
  exact ⟨sameMemory_of_mem_eq (by rw [hrest]), by rw [hrest], by rw [hrest], by rw [hrest], by rw [hrest],
    by rw [hrest], by rw [hrest], by rw [hrest], hhook, hstatus, hctrl⟩

end Sys2Proof.Machine
end

section
/-! SUPPORT. Host accesses to registers: an equation for each outcome (42_control.md R162, R163). -/

namespace Sys2Proof.Machine

theorem hostWrite_argument {s : State} {r v : Nat} {a : Args} (h : writeArg s.par s.arg v r = some a) :
    hostWrite r v s = .next { s with arg := a, cpc := s.cpc + 1 } := by
  have hr : r ≠ 3 := by
    rintro rfl
    cases h
  simp only [hostWrite, if_neg hr, h, commit, State.nextOp]

theorem hostWrite_illegal {s : State} {r v : Nat} (hr : r ≠ 3) (h : writeArg s.par s.arg v r = none) :
    hostWrite r v s = .next (raiseFault ⟨.illegalRegisterAccess, r⟩ s) := by
  simp only [hostWrite, if_neg hr, h, commit]

/-- The argument registers are 4 to 9. -/
theorem writeArg_eq_none (p : Params) (a : Args) (v : Nat) {r : Nat} (h : r < 4 ∨ 9 < r) :
    writeArg p a v r = none := by
  unfold writeArg
  split
  case h_7 => rfl
  all_goals omega

/-- Settles O57: `writeArg` at each number, and CMD runs its command or is no command. -/
theorem hostWriteRegisters : Obligations.HostWriteRegisters := by
  unfold Obligations.HostWriteRegisters
  intro s v
  exact ⟨hostWrite_argument rfl, hostWrite_argument rfl, hostWrite_argument rfl, hostWrite_argument rfl,
    hostWrite_argument rfl, hostWrite_argument rfl, fun _ h => hostWrite_cmd_of_command h s,
    fun _ h => hostWrite_cmd_of_error h s,
    fun r hr => hostWrite_illegal (by omega) (writeArg_eq_none _ _ _ (by omega))⟩

theorem hostRead_readable {s : State} {r v : Nat} (h : readReg s r = some v) :
    hostRead r s = .next { s with cpc := s.cpc + 1, trace := s.trace ++ [.hostRd r v] } := by
  simp only [hostRead, h, commit, State.nextOp, State.emit]

theorem hostRead_illegal {s : State} {r : Nat} (h : readReg s r = none) :
    hostRead r s = .next (raiseFault ⟨.illegalRegisterAccess, r⟩ s) := by
  simp only [hostRead, h, commit]

/-- DATA, CMD and the numbers from 17 are not read. -/
theorem readReg_eq_none (s : State) {r : Nat} (h : r = 2 ∨ r = 3 ∨ 17 ≤ r) : readReg s r = none := by
  unfold readReg
  split
  case h_16 => rfl
  all_goals omega

/-- Settles O58: `readReg` at each number. -/
theorem hostReadRegisters : Obligations.HostReadRegisters := by
  unfold Obligations.HostReadRegisters
  refine fun s => ⟨fun r hr => hostRead_illegal (readReg_eq_none s hr), fun r v hrow => hostRead_readable ?_⟩
  refine (List.forall_iff_forall_mem (p := fun row : Nat × Nat => readReg s row.1 = some row.2)).1 ?_ (r, v) hrow
  exact ⟨rfl, rfl, rfl, rfl, rfl, rfl, rfl, rfl, rfl, rfl, rfl, rfl, rfl, rfl, rfl⟩

end Sys2Proof.Machine
end

section
/-! SUPPORT. What starts an exchange: from one state of a step to the next, `StartsByWrite`, its rules, and one lemma
for each part of a step (43_serial_engine.md R173, R174, R182). -/

namespace Sys2Proof.Machine

/-- From `s` to `t` an exchange starts only in controller role with EN = 1 and by an accepted DataWrite among the events
emitted (43_serial_engine.md R173). -/
def StartsByWrite (s t : State) : Prop :=
  t.xferBusy = true → s.xferBusy = true ∨
    s.en = true ∧ s.role = true ∧ ∃ b es, t.trace = s.trace ++ es ∧ .dataWr b true ∈ es

/-- From `s` to `t` CTRL and S.xfer_busy stay, and the trace only grows. -/
structure ExchangeKept (s t : State) : Prop where
  ctrl : t.ctrl = s.ctrl
  busy : t.xferBusy = s.xferBusy
  trace : s.trace <+: t.trace

/-! ## Rules -/

section
variable {s t u : State}

theorem StartsByWrite.of_busy_eq (h : t.xferBusy = s.xferBusy) : StartsByWrite s t := fun ht => .inl (h ▸ ht)

theorem StartsByWrite.of_idle (h : t.xferBusy = false) : StartsByWrite s t := fun ht => absurd (h.symm.trans ht) nofun

theorem StartsByWrite.then_kept (h : StartsByWrite s t) (h' : ExchangeKept t u) : StartsByWrite s u := by
  intro hu
  refine (h (h'.busy ▸ hu)).imp_right fun ⟨hen, hrole, b, es, ht, hb⟩ => ?_
  obtain ⟨fs, hfs⟩ := h'.trace
  exact ⟨hen, hrole, b, es ++ fs, by rw [← hfs, ht, List.append_assoc], List.mem_append_left fs hb⟩

theorem StartsByWrite.after_kept (h : ExchangeKept s t) (h' : StartsByWrite t u) : StartsByWrite s u := by
  intro hu
  refine (h' hu).imp (h.busy ▸ ·) fun ⟨hen, hrole, b, es, ht, hb⟩ => ?_
  obtain ⟨fs, hfs⟩ := h.trace
  rw [State.en, h.ctrl] at hen
  rw [State.role, h.ctrl] at hrole
  exact ⟨hen, hrole, b, fs ++ es, by rw [ht, ← hfs, List.append_assoc], List.mem_append_right fs hb⟩

/-- A raised fault starts no exchange: it undoes the rest of its step (60_exceptions.md R216). -/
theorem StartsByWrite.of_commit {r : Except Trap State} (hc : commit s r = .next t)
    (hok : ∀ u, r = .ok u → StartsByWrite s u) : StartsByWrite s t := by
  rcases commit_next.1 hc with hr | ⟨f, -, rfl⟩
  · exact hok t hr
  · exact .of_busy_eq rfl

end

/-! ## DATA, the interrupt step and the micro-steps -/

theorem dataWrite_starts {b : Byte} {s t : State} (h : dataWrite b s = .ok t) : StartsByWrite s t := by
  rcases dataWrite_ok h with ⟨-, -, rfl⟩ | ⟨-, hen, hrole, rfl⟩ | ⟨-, -, rfl⟩
  · exact .of_busy_eq rfl
  · exact fun _ => .inr ⟨hen, hrole, b, [.dataWr b true, .xferStart b], by simp, by simp⟩
  · exact .of_busy_eq rfl

theorem sendByte_starts {a : Nat} {s t : State} (h : sendByte a s = .ok t) : StartsByWrite s t :=
  dataWrite_starts (sendByte_ok h).2.2

theorem storeByte_exchangeKept {a : Nat} {s t : State} (h : storeByte a s = .ok t) : ExchangeKept s t := by
  obtain ⟨-, -, rfl⟩ := storeByte_ok.1 h
  exact ⟨rfl, rfl, List.prefix_append _ _⟩

theorem setTransfer_exchangeKept (s : State) (x : Transfer) (g : Ghost) : ExchangeKept s (s.setTransfer x g) :=
  ⟨rfl, rfl, List.prefix_rfl⟩

/-- The only part of an advance that may start an exchange is the byte it sends. -/
theorem advance_starts {s t : State} (h : advance s = .ok t) : StartsByWrite s t := by
  cases hm : s.xfer.mode with
  | idle =>
    cases (advance_idle hm).symm.trans h
    exact .of_busy_eq rfl
  | tx =>
    rcases advanceTx_ok ((advance_tx hm).symm.trans h) with ⟨-, rfl⟩ | ⟨-, u, hu, rfl⟩
    · exact .of_busy_eq rfl
    · exact (sendByte_starts hu).then_kept (setTransfer_exchangeKept u _ _)
  | rx =>
    rcases advanceRx_ok ((advance_rx hm).symm.trans h) with ⟨-, rfl⟩ | ⟨-, u, hu, rfl⟩
    · exact .of_busy_eq rfl
    · exact .of_busy_eq (storeByte_exchangeKept hu).busy
  | txrx =>
    rcases advanceTxrx_ok ((advance_txrx hm).symm.trans h) with ⟨-, u, hu, rfl⟩ | ⟨-, u, v, hu, hv, rfl⟩
    · exact .of_busy_eq (storeByte_exchangeKept hu).busy
    · exact ((sendByte_starts hu).then_kept (storeByte_exchangeKept hv)).then_kept (setTransfer_exchangeKept v _ _)

theorem interruptEntry_exchangeKept (s : State) : ExchangeKept s (interruptEntry s) :=
  ⟨rfl, rfl, List.prefix_append _ _⟩

theorem notify_exchangeKept {s t : State} (h : notify s = .ok t) : ExchangeKept s t := by
  rcases notify_ok h with ⟨-, rfl⟩ | ⟨-, -, rfl⟩
  · exact ⟨rfl, rfl, List.prefix_append _ _⟩
  · exact ⟨rfl, rfl, List.prefix_rfl⟩

theorem interruptStep_starts {s t : State} (h : interruptStep s = .next t) : StartsByWrite s t := by
  refine .of_commit h fun v hv => ?_
  obtain ⟨u, ha, hn⟩ := interruptBody_ok.1 hv
  exact .after_kept (interruptEntry_exchangeKept s) ((advance_starts ha).then_kept (notify_exchangeKept hn))

theorem waitStep_xferBusy (s : State) : (waitStep s).xferBusy = s.xferBusy := by
  unfold waitStep
  split
  · rfl
  · split <;> rfl

theorem finishStep_xferBusy {k : Kind} {s t : State} (h : finishStep k s = .ok t) : t.xferBusy = s.xferBusy := by
  rcases finishStep_ok h with ⟨-, u, hu, rfl⟩ | ⟨-, rfl⟩ <;> rw [endByte_frame]
  obtain ⟨-, -, rfl⟩ := regionWrite_ok.1 hu
  rfl

/-- The only part of a micro-step that may start an exchange is the byte a Start sends. -/
theorem microStep_starts {k : Kind} {s t : State} (h : microStep k s = .ok t) : StartsByWrite s t := by
  cases hp : s.blk.phase with
  | start =>
    rcases startStep_ok ((microStep_of_start k hp).symm.trans h) with ⟨-, b, u, -, hu, rfl⟩ | ⟨-, rfl⟩
    · exact (dataWrite_starts hu).then_kept ⟨rfl, rfl, List.prefix_rfl⟩
    · exact .of_busy_eq rfl
  | wait =>
    cases (microStep_of_wait k hp).symm.trans h
    exact .of_busy_eq (waitStep_xferBusy s)
  | finish => exact .of_busy_eq (finishStep_xferBusy ((microStep_of_finish k hp).symm.trans h))

/-! ## Commands -/

theorem issueBlocking_xferBusy {k : Kind} {s t : State} (h : issueBlocking k s = .ok t) : t.xferBusy = s.xferBusy := by
  rcases issueBlocking_ok h with ⟨-, rfl⟩ | ⟨-, -, -, -, rfl⟩ <;> rfl

theorem complete_exchangeKept (s : State) (op : Instr) (r : Result) : ExchangeKept s (s.complete op r) :=
  ⟨rfl, rfl, List.prefix_append _ _⟩

theorem ArmingOutcome.starts {op : Instr} {arm : Except Trap State} {s t : State} (h : ArmingOutcome op arm s t)
    (harm : ∀ u, arm = .ok u → StartsByWrite s u) : StartsByWrite s t := by
  cases h with
  | ignored | faulted => exact .of_busy_eq rfl
  | armed u hu => exact (harm u hu).then_kept (complete_exchangeKept u op .ok)

theorem armTx_starts {a n : Nat} {s t : State} (h : armTx a n s = .ok t) : StartsByWrite s t := by
  obtain ⟨-, -, u, hu, rfl⟩ := armTx_ok h
  exact (dataWrite_starts hu).then_kept (setTransfer_exchangeKept u _ _)

theorem armTxrx_starts {a b n : Nat} {s t : State} (h : armTxrx a b n s = .ok t) : StartsByWrite s t := by
  obtain ⟨-, -, -, u, hu, rfl⟩ := armTxrx_ok h
  exact (dataWrite_starts hu).then_kept (setTransfer_exchangeKept u _ _)

/-- Of the commands only the two that arm a sending transfer start an exchange (42_control.md R160, 41_async.md R124,
R130). -/
theorem exec_starts {i : Instr} {s t : State} (h : exec i s = .next t) : StartsByWrite s t := by
  cases i with
  | init =>
    refine .of_commit h fun u hu => ?_
    split at hu <;> cases hu
    exact .of_idle (abortExchange_xferBusy s)
  | initCtrlDefault | initPeriphDefault | deinit | busDisable =>
    cases h
    exact .of_idle (abortExchange_xferBusy s)
  | setHook | irqEnable | irqDisable | busEnable =>
    cases h
    exact .of_busy_eq rfl
  | tx | rx | txrx => exact .of_commit h fun _ hu => .of_busy_eq (issueBlocking_xferBusy hu)
  | txAsync => exact (exec_sending_outcome (by simp) exec_txAsync_admitted h).starts fun _ => armTx_starts
  | rxAsync =>
    obtain ⟨-, -, -, -, -, -, hbusy⟩ := rxAsync_frame h
    exact .of_busy_eq hbusy
  | txrxAsync => exact (exec_sending_outcome (by simp) exec_txrxAsync_admitted h).starts fun _ => armTxrx_starts

/-! ## Host operations and the foreground step -/

theorem hostWrite_starts {r v : Nat} {s t : State} (h : hostWrite r v s = .next t) : StartsByWrite s t := by
  unfold hostWrite issueCommand at h
  split at h
  · split at h
    · exact exec_starts h
    · exact .of_commit h nofun
  · refine .of_commit h fun u hu => ?_
    split at hu <;> cases hu
    exact .of_busy_eq rfl

theorem hostRead_xferBusy {r : Nat} {s t : State} (h : hostRead r s = .next t) : t.xferBusy = s.xferBusy := by
  cases hr : readReg s r with
  | none =>
    cases (hostRead_illegal hr).symm.trans h
    rfl
  | some v =>
    cases (hostRead_readable hr).symm.trans h
    rfl

theorem hostMemWrite_starts {a : Nat} {v : Byte} {s t : State} (h : hostMemWrite a v s = .next t) :
    StartsByWrite s t := by
  refine .of_commit h fun u hu => ?_
  split at hu
  · cases hu
  · next hw =>
    obtain ⟨-, rfl⟩ := memWrite_ok.1 hw
    split at hu <;> cases hu
    exact .of_busy_eq rfl

theorem hostMemRead_starts {a : Nat} {s t : State} (h : hostMemRead a s = .next t) : StartsByWrite s t := by
  refine .of_commit h fun u hu => ?_
  split at hu
  · cases hu
  · split at hu <;> cases hu
    exact .of_busy_eq rfl

theorem hostOpStep_starts {op : HostOp} {s t : State} (h : hostOpStep op s = .next t) : StartsByWrite s t := by
  cases op with
  | hw r v => exact hostWrite_starts h
  | hr r => exact .of_busy_eq (hostRead_xferBusy h)
  | hmw a v => exact hostMemWrite_starts h
  | hmr a => exact hostMemRead_starts h

theorem foregroundStep_starts {s t : State} (h : foregroundStep s = .next t) : StartsByWrite s t := by
  unfold foregroundStep at h
  split at h
  · exact .of_commit h fun _ => microStep_starts
  · split at h
    · exact hostOpStep_starts h
    · cases h

end Sys2Proof.Machine
end

section
/-! SUPPORT. The serial engine: DATA's primitives, the Bus agent's moves, and what starts an exchange
(43_serial_engine.md R171 to R175, R182). -/

namespace Sys2Proof.Machine

theorem enabled_peerStart_iff {s : State} : enabled s .peerStart = true ↔
    s.fault = 0x00#8 ∧ s.role = false ∧ s.en = true ∧ s.xferBusy = false := by
  simp [enabled, peerEnabled, and_assoc, and_left_comm]

theorem enabled_exchangeDone_iff {b : Byte} {s : State} :
    enabled s (.exchangeDone b) = true ↔ s.fault = 0x00#8 ∧ s.xferBusy = true := by
  simp [enabled]

/-- Settles O54: the foreground and the interrupt start an exchange only by a DataWrite, and of the Bus agent's moves
only the remote party's start does. -/
theorem exchangeStartsOnlyBy : Obligations.ExchangeStartsOnlyBy := by
  unfold Obligations.ExchangeStartsOnlyBy
  intro m s t hrun hidle hbusy hen
  have of_write (h : StartsByWrite s t) : s.en = true ∧
      (s.role = true ∧ (∃ b es, t.trace = s.trace ++ es ∧ .dataWr b true ∈ es) ∨
        s.role = false ∧ m = .peerStart) := by
    obtain hs | ⟨hon, hrole, hwrite⟩ := h hbusy
    · exact absurd (hidle.symm.trans hs) nofun
    · exact ⟨hon, .inl ⟨hrole, hwrite⟩⟩
  cases m with
  | foreground => exact of_write (foregroundStep_starts hrun)
  | interrupt => exact of_write (interruptStep_starts hrun)
  | exchangeDone b =>
    cases hrun
    exact of_write (.of_idle rfl)
  | peerStart =>
    obtain ⟨-, hrole, hon, -⟩ := enabled_peerStart_iff.1 hen
    exact ⟨hon, .inr ⟨hrole, rfl⟩⟩
  | peerWait =>
    cases hrun
    exact of_write (.of_busy_eq rfl)

/-- Settles O52: the three outcomes of a DataWrite, and `readDone` for a DataRead, which keeps S.rx_latch. -/
theorem dataRegisterPrimitives : Obligations.DataRegisterPrimitives := by
  unfold Obligations.DataRegisterPrimitives
  refine fun b s => ⟨dataWrite_accepted b, dataWrite_dropped b, dataWrite_faults b, rfl, dataRead_tc s, ?_⟩
  calc (dataRead (dataRead s)).trace = s.trace ++ [.dataRd s.rxLatch] ++ [.dataRd s.rxLatch] := rfl
    _ = s.trace ++ [.dataRd s.rxLatch, .dataRd s.rxLatch] := List.append_assoc ..

/-- Settles O53: when the two moves are enabled, and what each writes. -/
theorem busAgentSteps : Obligations.BusAgentSteps := by
  unfold Obligations.BusAgentSteps
  intro b s
  have hrest (k : Nat) (hk : k ≠ 7) : bit (completeExchange b s).status k = bit s.status k :=
    bit_setBit_of_ne s.status true (by decide) hk
  exact ⟨enabled_exchangeDone_iff, ⟨completeExchange b s, rfl, completeExchange_tc b s, hrest, rfl⟩,
    enabled_peerStart_iff, rfl⟩

end Sys2Proof.Machine
end

section
/-! SUPPORT. The wire: which bit of a byte stands at which place, and the byte read back from its bits
(43_serial_engine.md R177). -/

namespace Sys2Proof.Machine

/-- The bit of the byte that is number `k` on the wire (43_serial_engine.md R177). -/
def wirePos (dord : Bool) (k : Nat) : Nat := if dord then k else 7 - k

theorem wirePos_lt (dord : Bool) {k : Nat} (hk : k < 8) : wirePos dord k < 8 := by
  cases dord
  · simp only [wirePos, Bool.false_eq_true, if_false]
    omega
  · exact hk

/-- Either order is its own inverse. -/
theorem wirePos_wirePos (dord : Bool) {k : Nat} (hk : k < 8) : wirePos dord (wirePos dord k) = k := by
  cases dord
  · exact Nat.sub_sub_self (Nat.le_of_lt_succ hk)
  · rfl

theorem wirePos_inj (dord : Bool) {j k : Nat} (hj : j < 8) (hk : k < 8) (h : wirePos dord j = wirePos dord k) :
    j = k := by
  rw [← wirePos_wirePos dord hj, h, wirePos_wirePos dord hk]

theorem wireBits_eq (dord : Bool) (b : Byte) :
    wireBits dord b = (List.range 8).map fun k => bit b (wirePos dord k) := by
  cases dord <;> rfl

/-- The receive side after the first `n` bits of `w`. -/
def byteOfPrefix (dord : Bool) (w : List Bool) (n : Nat) : Byte :=
  (List.range n).foldl (fun v k => if w.getD k false then setBit v (wirePos dord k) true else v) 0x00#8

theorem byteOfWire_eq (dord : Bool) (w : List Bool) : byteOfWire dord w = byteOfPrefix dord w 8 := rfl

theorem byteOfPrefix_succ (dord : Bool) (w : List Bool) (n : Nat) :
    byteOfPrefix dord w (n + 1) =
      if w.getD n false then setBit (byteOfPrefix dord w n) (wirePos dord n) true else byteOfPrefix dord w n := by
  simp only [byteOfPrefix, List.range_succ, List.foldl_append, List.foldl_cons, List.foldl_nil]

/-- Each bit that has arrived stands in its place, and the other places are still 0. -/
theorem bit_byteOfPrefix (dord : Bool) (w : List Bool) {n k : Nat} (hn : n ≤ 8) (hk : k < 8) :
    bit (byteOfPrefix dord w n) (wirePos dord k) = (decide (k < n) && w.getD k false) := by
  induction n with
  | zero => simp [byteOfPrefix, bit]
  | succ n ih =>
    have ih := ih (Nat.le_of_lt hn)
    rw [byteOfPrefix_succ]
    by_cases hkn : k = n
    · subst hkn
      split
      · next hw => simpa [bit_setBit_same _ _ (wirePos_lt dord hk)] using hw.symm
      · next hw =>
        rw [Bool.eq_false_iff.2 hw, Bool.and_false]
        simpa using ih
    · have hlt : k < n + 1 ↔ k < n := by omega
      rw [decide_eq_decide.2 hlt, ← ih]
      split
      · exact bit_setBit_of_ne _ _ (wirePos_lt dord hn) fun h => hkn (wirePos_inj dord hk hn h)
      · rfl

theorem length_wireOut (s : State) : (wireOut s).length = 8 := by
  simp [wireOut, wireBits_eq]

theorem getElem?_wireOut (s : State) {k : Nat} (hk : k < 8) :
    (wireOut s)[k]? = some (bit s.txShift (wirePos s.dord k)) := by
  simp [wireOut, wireBits_eq, hk]

theorem getElem?_eq_bit_wireIn (s : State) {w : List Bool} {k : Nat} (hw : w.length = 8) (hk : k < 8) :
    w[k]? = some (bit (wireIn s w) (wirePos s.dord k)) := by
  rw [wireIn, byteOfWire_eq, bit_byteOfPrefix _ _ le_rfl hk]
  simp [hk, hw]

/-- A byte received as it was sent is the same byte: the two sides use one order. -/
theorem wireIn_wireOut (s : State) : wireIn s (wireOut s) = s.txShift := by
  have agree {k : Nat} (hk : k < 8) :
      bit (wireIn s (wireOut s)) (wirePos s.dord k) = bit s.txShift (wirePos s.dord k) :=
    Option.some_inj.1 ((getElem?_eq_bit_wireIn s (length_wireOut s) hk).symm.trans (getElem?_wireOut s hk))
  refine BitVec.eq_of_getLsbD_eq fun j hj => ?_
  simpa only [wirePos_wirePos s.dord hj, bit] using agree (wirePos_lt s.dord hj)

/-- Settles O56: `wirePos` of bit 5 of CTRL is the statement's order, for both directions. -/
theorem wireOrderFollowsDord : Obligations.WireOrderFollowsDord := by
  unfold Obligations.WireOrderFollowsDord
  exact fun s => ⟨rfl, length_wireOut s, fun _ => getElem?_wireOut s, fun _ _ => getElem?_eq_bit_wireIn s,
    wireIn_wireOut s⟩

end Sys2Proof.Machine
end

section
/-! SUPPORT. What a step does to S.fault: `FaultOnly` for each part of a step, and when an agent has a step at all
(60_exceptions.md R201, R202, R216, R217). -/

namespace Sys2Proof.Machine

/-- From `s` to `t` S.fault stays, or a fault is raised and nothing else done (60_exceptions.md R216). -/
def FaultOnly (s t : State) : Prop := t.fault = s.fault ∨ ∃ f, t = raiseFault f s

theorem FaultOnly.of_commit {r : Except Trap State} {s t : State} (hc : commit s r = .next t)
    (hok : ∀ u, r = .ok u → u.fault = s.fault) : FaultOnly s t :=
  (commit_next.1 hc).imp (hok t) fun ⟨f, _, ht⟩ => ⟨f, ht⟩

/-! ## Parts that raise no fault leave S.fault as it was -/

theorem dataWrite_fault {b : Byte} {s t : State} (h : dataWrite b s = .ok t) : t.fault = s.fault := by
  rw [dataWrite_frame h]

theorem microStep_fault {k : Kind} {s t : State} (h : microStep k s = .ok t) : t.fault = s.fault := by
  rw [microStep_frame h]

theorem issueBlocking_fault {k : Kind} {s t : State} (h : issueBlocking k s = .ok t) : t.fault = s.fault := by
  rcases issueBlocking_ok h with ⟨-, rfl⟩ | ⟨-, -, -, -, rfl⟩ <;> rfl

theorem abortExchange_fault (s : State) : (abortExchange s).fault = s.fault := by rw [abortExchange_frame]

@[simp] theorem State.setTransfer_fault (s : State) (x : Transfer) (g : Ghost) :
    (s.setTransfer x g).fault = s.fault := rfl

theorem armTx_fault {a n : Nat} {s t : State} (h : armTx a n s = .ok t) : t.fault = s.fault := by
  obtain ⟨-, -, u, hu, rfl⟩ := armTx_ok h
  rw [State.setTransfer_fault, dataWrite_fault hu]

theorem armRx_fault {b n : Nat} {s t : State} (h : armRx b n s = .ok t) : t.fault = s.fault := by
  obtain ⟨-, rfl⟩ := armRx_ok h
  rfl

theorem armTxrx_fault {a b n : Nat} {s t : State} (h : armTxrx a b n s = .ok t) : t.fault = s.fault := by
  obtain ⟨-, -, -, u, hu, rfl⟩ := armTxrx_ok h
  rw [State.setTransfer_fault, dataWrite_fault hu]

theorem ArmingOutcome.faultOnly {op : Instr} {arm : Except Trap State} {s t : State} (h : ArmingOutcome op arm s t)
    (harm : ∀ u, arm = .ok u → u.fault = s.fault) : FaultOnly s t := by
  cases h with
  | ignored => exact .inl rfl
  | faulted f => exact .inr ⟨f, rfl⟩
  | armed u hu => exact .inl (harm u hu)

/-! ## Commands, host operations and the foreground step -/

theorem exec_faultOnly {i : Instr} {s t : State} (h : exec i s = .next t) : FaultOnly s t := by
  cases i with
  | init =>
    refine .of_commit h fun u hu => ?_
    split at hu <;> cases hu
    exact abortExchange_fault s
  | initCtrlDefault | initPeriphDefault | deinit | busDisable =>
    cases h
    exact .inl (abortExchange_fault s)
  | setHook | irqEnable | irqDisable | busEnable =>
    cases h
    exact .inl rfl
  | tx | rx | txrx => exact .of_commit h fun _ => issueBlocking_fault
  | txAsync => exact (exec_sending_outcome (by simp) exec_txAsync_admitted h).faultOnly fun _ => armTx_fault
  | rxAsync => exact (exec_rxAsync_outcome h).faultOnly fun _ => armRx_fault
  | txrxAsync => exact (exec_sending_outcome (by simp) exec_txrxAsync_admitted h).faultOnly fun _ => armTxrx_fault

theorem hostWrite_faultOnly {r v : Nat} {s t : State} (h : hostWrite r v s = .next t) : FaultOnly s t := by
  unfold hostWrite issueCommand at h
  split at h
  · split at h
    · exact exec_faultOnly h
    · exact .of_commit h nofun
  · refine .of_commit h fun u hu => ?_
    split at hu <;> cases hu
    rfl

theorem hostRead_faultOnly {r : Nat} {s t : State} (h : hostRead r s = .next t) : FaultOnly s t := by
  refine .of_commit h fun u hu => ?_
  split at hu <;> cases hu
  rfl

theorem hostMemWrite_faultOnly {a : Nat} {v : Byte} {s t : State} (h : hostMemWrite a v s = .next t) :
    FaultOnly s t := by
  refine .of_commit h fun u hu => ?_
  split at hu
  · cases hu
  · next hw =>
    obtain ⟨-, rfl⟩ := memWrite_ok.1 hw
    split at hu <;> cases hu
    rfl

theorem hostMemRead_faultOnly {a : Nat} {s t : State} (h : hostMemRead a s = .next t) : FaultOnly s t := by
  refine .of_commit h fun u hu => ?_
  split at hu
  · cases hu
  · split at hu <;> cases hu
    rfl

theorem hostOpStep_faultOnly {op : HostOp} {s t : State} (h : hostOpStep op s = .next t) : FaultOnly s t := by
  cases op with
  | hw r v => exact hostWrite_faultOnly h
  | hr r => exact hostRead_faultOnly h
  | hmw a v => exact hostMemWrite_faultOnly h
  | hmr a => exact hostMemRead_faultOnly h

theorem foregroundStep_faultOnly {s t : State} (h : foregroundStep s = .next t) : FaultOnly s t := by
  unfold foregroundStep at h
  split at h
  · exact .of_commit h fun _ => microStep_fault
  · split at h
    · exact hostOpStep_faultOnly h
    · cases h

/-! ## The step -/

theorem runMove_faultOnly {m : Move} {s t : State} (h : runMove m s = .next t) : FaultOnly s t := by
  cases m with
  | foreground => exact foregroundStep_faultOnly h
  | interrupt => exact .of_commit h fun _ => interruptBody_fault
  | exchangeDone b | peerStart | peerWait =>
    cases h
    exact .inl rfl

theorem fault_of_enabled {s : State} {m : Move} (h : enabled s m = true) : s.fault = 0x00#8 :=
  of_decide_eq_true (Bool.and_eq_true_iff.1 h).1

/-- In a faulted state no agent has a step (60_exceptions.md R216). -/
theorem step_of_fault {s : State} (h : s.fault ≠ 0x00#8) : step s = .fault (.halted s.fault) := by
  cases hm : nextMove s with
  | some m => exact absurd (fault_of_enabled (enabled_of_nextMove hm)) h
  | none => simp only [step, hm, stopReason, if_pos h]

/-- Settles O9: a step starts with S.fault clear, so by `runMove_faultOnly` one that leaves it set raised a fault. -/
theorem faultUndoesItsStep : Obligations.FaultUndoesItsStep := by
  unfold Obligations.FaultUndoesItsStep
  refine fun s => ⟨step_of_fault, fun t hstep hset => ?_⟩
  obtain ⟨m, u, hm, hrun, rfl⟩ := step_next.1 hstep
  have hclear : s.fault = 0x00#8 := fault_of_enabled (enabled_of_nextMove hm)
  rcases runMove_faultOnly hrun with hkept | ⟨f, rfl⟩
  · exact absurd (hkept.trans hclear) hset
  · exact ⟨f, rfl⟩

/-- Settles O10: the table of `FaultCode.byte`. -/
theorem faultCodeNumbers : Obligations.FaultCodeNumbers := by
  unfold Obligations.FaultCodeNumbers
  exact ⟨rfl, rfl, rfl, rfl, rfl, rfl, rfl, rfl, rfl⟩

/-- Settles O47: the interrupt is enabled while it is pending, which reads TC and IE but not EN. -/
theorem interruptEnabledWhilePending : Obligations.InterruptEnabledWhilePending := by
  unfold Obligations.InterruptEnabledWhilePending
  intro s
  calc enabled s .interrupt = true ↔ s.fault = 0x00#8 ∧ s.tc = true ∧ s.ie = true := by
        simp [enabled, State.irqPending]
    _ ↔ s.tc = true ∧ s.ie = true ∧ s.fault = 0x00#8 := and_comm.trans and_assoc

end Sys2Proof.Machine
end

section
/-! SUPPORT. The interrupt step: what its advance does to memory, STATUS and the trace, said by its parts, and what its
notification adds (41_async.md R136 to R141, 60_exceptions.md R203 to R208). -/

namespace Sys2Proof.Machine

/-! ## The advance, by its parts -/

/-- An advance that raises no fault sends at most one byte, then stores at most one, at the receive cursor and only in a
receiving mode, then writes TransferState (41_async.md R136 to R141). -/
theorem advance_parts {s t : State} (h : advance s = .ok t) :
    ∃ u v x, (u = s ∨ ∃ a, sendByte a s = .ok u) ∧
      (v = u ∨ s.xfer.mode.receives = true ∧ storeByte s.xfer.rxCur u = .ok v) ∧ t = v.setTransfer x v.ghost := by
  cases hm : s.xfer.mode with
  | idle =>
    cases advance_row_idle h hm
    exact ⟨s, s, s.xfer, .inl rfl, .inl rfl, rfl⟩
  | tx =>
    rcases advanceTx_ok ((advance_tx hm).symm.trans h) with ⟨-, rfl⟩ | ⟨-, u, hu, rfl⟩
    · exact ⟨s, s, _, .inl rfl, .inl rfl, rfl⟩
    · exact ⟨u, u, _, .inr ⟨_, hu⟩, .inl rfl, rfl⟩
  | rx =>
    rcases advanceRx_ok ((advance_rx hm).symm.trans h) with ⟨-, rfl⟩ | ⟨-, v, hv, rfl⟩
    · exact ⟨s, s, _, .inl rfl, .inl rfl, rfl⟩
    · exact ⟨s, v, _, .inl rfl, .inr ⟨rfl, hv⟩, rfl⟩
  | txrx =>
    rcases advanceTxrx_ok ((advance_txrx hm).symm.trans h) with ⟨-, v, hv, rfl⟩ | ⟨-, u, v, hu, hv, rfl⟩
    · exact ⟨s, v, _, .inl rfl, .inr ⟨rfl, hv⟩, rfl⟩
    · obtain ⟨-, hx⟩ := sendByte_keeps hu
      exact ⟨u, v, _, .inr ⟨_, hu⟩, .inr ⟨rfl, hx ▸ hv⟩, rfl⟩

/-! ## Memory -/

theorem sendByte_mem {a : Nat} {s t : State} (h : sendByte a s = .ok t) : t.mem = s.mem := by
  obtain ⟨-, -, hd⟩ := sendByte_ok h
  rw [dataWrite_frame hd]

/-- An advance writes memory at most at the receive cursor, and only in a receiving mode (41_async.md R138 to R141). -/
theorem advance_mem {s t : State} (h : advance s = .ok t) :
    t.mem = s.mem ∨ s.xfer.mode.receives = true ∧ ∃ b, t.mem = Memory.write s.mem s.xfer.rxCur b := by
  obtain ⟨u, v, x, hsend, hstore, rfl⟩ := advance_parts h
  have hu : u.mem = s.mem := by
    rcases hsend with rfl | ⟨a, hu⟩
    · rfl
    · exact sendByte_mem hu
  rw [State.setTransfer_mem, ← hu]
  refine hstore.imp (congrArg State.mem) fun ⟨hm, hv⟩ => ⟨hm, u.rxLatch, ?_⟩
  obtain ⟨-, -, rfl⟩ := storeByte_ok.1 hv
  rfl

/-! ## STATUS -/

/-- An advance writes STATUS in TC only (43_serial_engine.md R171, R172). -/
theorem advance_status {s t : State} (h : advance s = .ok t) {k : Nat} (hk : k ≠ 7) :
    bit t.status k = bit s.status k := by
  obtain ⟨u, v, x, hsend, hstore, rfl⟩ := advance_parts h
  have hu : bit u.status k = bit s.status k := by
    rcases hsend with rfl | ⟨a, hu⟩
    · rfl
    · obtain ⟨-, -, hd⟩ := sendByte_ok hu
      exact (dataWrite_statusKept hd).bit_eq hk
  refine Eq.trans (b := bit u.status k) ?_ hu
  rcases hstore with rfl | ⟨-, hv⟩
  · rfl
  · obtain ⟨-, -, rfl⟩ := storeByte_ok.1 hv
    exact bit_setBit_of_ne _ _ (by decide) hk

/-! ## The trace -/

/-- From `s` to `t` the trace grows, by no Notify event. -/
def Unnotified (s t : State) : Prop := ∃ es, t.trace = s.trace ++ es ∧ notifications es = []

theorem notifications_append (es fs : List Event) : notifications (es ++ fs) = notifications es ++ notifications fs :=
  List.filterMap_append

theorem Unnotified.refl (s : State) : Unnotified s s := ⟨[], (List.append_nil _).symm, rfl⟩

theorem Unnotified.trans {s t u : State} (h : Unnotified s t) (h' : Unnotified t u) : Unnotified s u := by
  obtain ⟨es, ht, hes⟩ := h
  obtain ⟨fs, hu, hfs⟩ := h'
  exact ⟨es ++ fs, by rw [hu, ht, List.append_assoc], by rw [notifications_append, hes, hfs]; rfl⟩

theorem sendByte_unnotified {a : Nat} {s t : State} (h : sendByte a s = .ok t) : Unnotified s t := by
  obtain ⟨-, -, hd⟩ := sendByte_ok h
  rcases dataWrite_ok hd with ⟨-, -, rfl⟩ | ⟨-, -, -, rfl⟩ | ⟨-, -, rfl⟩
  · exact ⟨_, rfl, rfl⟩
  · exact ⟨[.dataWr _ true, .xferStart _], List.append_assoc .., rfl⟩
  · exact ⟨_, rfl, rfl⟩

/-- Only the notification after it emits Notify (60_exceptions.md R206). -/
theorem advance_unnotified {s t : State} (h : advance s = .ok t) : Unnotified s t := by
  obtain ⟨u, v, x, hsend, hstore, rfl⟩ := advance_parts h
  have hu : Unnotified s u := by
    rcases hsend with rfl | ⟨a, hu⟩
    · exact .refl u
    · exact sendByte_unnotified hu
  rcases hstore with rfl | ⟨-, hv⟩
  · exact hu
  · obtain ⟨-, -, rfl⟩ := storeByte_ok.1 hv
    exact hu.trans ⟨[.dataRd u.rxLatch], rfl, rfl⟩

theorem notifications_notified (k : Nat) :
    notifications (if k = 0 then [] else [.notify k]) = if k = 0 then [] else [k] := by
  split <;> rfl

/-! ## The interrupt step -/

/-- A notification that answers answers `notified` (60_exceptions.md R206). -/
theorem eq_notified_of_notify {s t : State} (h : notify s = .ok t) : t = notified s := by
  have hallowed : HookAllowed s := (notify_ok h).imp (·.1) fun ⟨_, hf, _⟩ => hf
  exact Except.ok.inj (h.symm.trans (notify_eq hallowed))

/-- An interrupt body that raises no fault is the advance after the entry, notified. -/
theorem interruptBody_notified {s t : State} (h : interruptBody s = .ok t) :
    ∃ u, advance (interruptEntry s) = .ok u ∧ t = notified u := by
  obtain ⟨u, ha, hn⟩ := interruptBody_ok.1 h
  exact ⟨u, ha, eq_notified_of_notify hn⟩

theorem advance_interruptEntry_keeps {s t : State} (h : advance (interruptEntry s) = .ok t) :
    t.par = s.par ∧ t.hook = s.hook := by
  rw [advance_frame h]
  exact ⟨rfl, rfl⟩

/-- What the interrupt leaves as it was (60_exceptions.md R204). -/
theorem interruptBody_keeps {s t : State} (h : interruptBody s = .ok t) :
    t.cpc = s.cpc ∧ t.blk = s.blk ∧ t.arg = s.arg ∧ t.ctrl = s.ctrl ∧ t.result = s.result ∧
      t.toCount = s.toCount ∧ t.hook = s.hook ∧ t.rxLatch = s.rxLatch ∧ t.ghost = s.ghost := by
  obtain ⟨u, ha, rfl⟩ := interruptBody_notified h
  rw [notified, advance_frame ha]
  exact ⟨rfl, rfl, rfl, rfl, rfl, rfl, rfl, rfl, rfl⟩

/-- The entry and the advance write STATUS in TC only (60_exceptions.md R203). -/
theorem interruptBody_status {s t : State} (h : interruptBody s = .ok t) {k : Nat} (hk : k ≠ 7) :
    bit t.status k = bit s.status k := by
  obtain ⟨u, ha, rfl⟩ := interruptBody_notified h
  exact (advance_status ha hk).trans (bit_setBit_of_ne _ _ (by decide) hk)

theorem interruptBody_mem {s t : State} (h : interruptBody s = .ok t) :
    t.mem = s.mem ∨ s.xfer.mode.receives = true ∧ ∃ b, t.mem = Memory.write s.mem s.xfer.rxCur b := by
  obtain ⟨u, ha, rfl⟩ := interruptBody_notified h
  have hmem := advance_mem ha
  exact hmem

/-- Settles O48: the entry clears TC, which the advance does not set again, and of the step's events only those of the
notification are Notify. -/
theorem interruptAcknowledgesAndNotifies : Obligations.InterruptAcknowledgesAndNotifies := by
  unfold Obligations.InterruptAcknowledgesAndNotifies
  intro s t _ hx hf
  obtain ⟨u, ha, rfl⟩ := interruptBody_notified (ok_of_commit hx hf)
  have htc : (notified u).tc = false := (advance_quiet ha).tc_false (State.putTc_tc _ false)
  obtain ⟨es, htrace, hes⟩ := advance_unnotified ha
  obtain ⟨-, hhook⟩ := advance_interruptEntry_keeps ha
  refine ⟨htc, es ++ (if s.hook = 0 then [] else [.notify s.hook]), ?_, ?_⟩
  · rw [notified, hhook, htrace]
    simp [interruptEntry]
  · rw [notifications_append, hes, notifications_notified]
    rfl

/-- Settles O51: an interrupt that raises no fault meets `interruptBody_keeps`, `interruptBody_status` and
`interruptBody_mem`, and a raised fault undoes the rest of its step. -/
theorem interruptFrame : Obligations.InterruptFrame := by
  unfold Obligations.InterruptFrame
  intro s t hx
  rcases commit_next.1 hx with hok | ⟨f, -, rfl⟩
  · obtain ⟨hcpc, hblk, harg, hctrl, hresult, hcount, hhook, hlatch, hghost⟩ := interruptBody_keeps hok
    refine ⟨hcpc, hblk, harg, hctrl, hresult, hcount, hhook, hlatch, hghost, fun _ => interruptBody_status hok,
      fun hwf => ?_, fun hno => ?_⟩
    · rcases interruptBody_mem hok with hsame | ⟨-, b, hw⟩
      · exact fun a _ => sameMemory_of_mem_eq hsame a
      · exact sameMemoryBut_of_write hwf hw
    · rcases interruptBody_mem hok with hsame | ⟨hrecv, -⟩
      · exact sameMemory_of_mem_eq hsame
      · rcases hno with hm | hm <;> simp [hm, Mode.receives] at hrecv
  · exact ⟨rfl, rfl, rfl, rfl, rfl, rfl, rfl, rfl, rfl, fun _ _ => rfl, fun _ _ _ => rfl, fun _ _ => rfl⟩

theorem notify_unset {s : State} (hh : s.hook = 0) (hf : s.par.unsetHookFaults = true) :
    notify s = .error ⟨.hookUnset, 0⟩ := by
  simp only [notify, hh, hf, ne_eq, not_true_eq_false, if_false, if_true]

/-- Settles O49: `notify` of the state after the advance, whose hook and parameters are the ones before it. -/
theorem notifyFollowsTheAdvance : Obligations.NotifyFollowsTheAdvance := by
  unfold Obligations.NotifyFollowsTheAdvance
  intro s t ha
  obtain ⟨hpar, hhook⟩ := advance_interruptEntry_keeps ha
  have hanswers (h : HookAllowed s) : interruptStep s = .next (notified t) :=
    commit_next.2 (.inl (interruptBody_of_advance h ha))
  refine ⟨fun hset => ?_, fun hunset hfaults => ?_, fun hunset hquiet => ?_⟩
  · rw [hanswers (.inl hset), notified, hhook, if_neg hset]
  · have hn : notify t = .error ⟨.hookUnset, 0⟩ := notify_unset (hhook.trans hunset) (hpar ▸ hfaults)
    simp only [interruptStep, interruptBody, ha, hn, commit]
  · have hsame : notified t = t := by rw [notified, if_pos (hhook.trans hunset), List.append_nil]
    rw [hanswers (.inr hquiet), hsame]

end Sys2Proof.Machine
end

section
/-! SUPPORT. Reset and launch: a launch state has the reset values of `Coherent`'s fields, whatever the launch arguments
are (70_reset_and_hazards.md R240, 10_state.md R54). -/

namespace Sys2Proof.Machine

/-! ## The reset values, under any parameters (00_scope.md R5 leaves the widths open) -/

theorem argsFit_reset (p : Params) : ArgsFit p State.reset.arg :=
  ⟨Nat.two_pow_pos _, Nat.two_pow_pos _, Nat.two_pow_pos _, Nat.two_pow_pos _, Nat.two_pow_pos _⟩

theorem transferFits_reset (p : Params) : TransferFits p State.reset.xfer :=
  ⟨Nat.two_pow_pos _, Nat.two_pow_pos _, Nat.two_pow_pos _⟩

theorem blockingFits_reset (p : Params) : BlockingFits p State.reset.blk :=
  ⟨Nat.two_pow_pos _, Nat.two_pow_pos _, Nat.two_pow_pos _, Nat.two_pow_pos _, Nat.two_pow_pos _, Nat.two_pow_pos _,
    Nat.two_pow_pos _⟩

theorem codesLegal_reset : CodesLegal State.reset := by decide

/-! ## Launch states -/

theorem isLaunch_reset : IsLaunch State.reset := ⟨⟨rfl, rfl⟩, rfl⟩

/-- A launch is Idle, with no blocking command and no exchange in progress, so of the launch arguments only the memory
contents have a law to meet, which `IsLaunch` asks of them. -/
theorem coherent_of_isLaunch {s : State} (h : IsLaunch s) : Coherent s := by
  obtain ⟨hmem, hs⟩ := h
  rw [hs]
  refine ⟨?widths, codesLegal_reset, hmem, ?transfer, ?blocking, ?streamAndBus⟩
  case widths =>
    exact ⟨argsFit_reset _, ⟨Nat.two_pow_pos _, Nat.two_pow_pos _⟩, transferFits_reset _, blockingFits_reset _⟩
  case transfer => exact (transferOk_idle rfl).2 rfl
  case blocking => exact nofun
  case streamAndBus => exact ⟨Nat.zero_le _, nofun, nofun⟩

/-! ## The statements -/

/-- Settles O14: SEQ_STATUS is computed from other fields, and its reset value is a part of `seqStatusFields`; every
other value stands in the definition of the reset state. -/
theorem resetValues : Obligations.ResetValues := by
  unfold Obligations.ResetValues
  obtain ⟨hseq, -⟩ := seqStatusFields
  exact ⟨rfl, rfl, rfl, rfl, hseq, rfl, rfl, rfl, rfl, rfl, rfl, rfl, rfl, rfl⟩

/-- Settles O15: the reset state is itself a launch state, and every launch state is coherent. -/
theorem resetMeetsInvariant : Obligations.ResetMeetsInvariant := by
  unfold Obligations.ResetMeetsInvariant
  exact ⟨coherent_of_isLaunch isLaunch_reset, fun _ => coherent_of_isLaunch⟩

end Sys2Proof.Machine
end
